-- ==== Sys2Proof/Word.lean ====
section
/-! DEFINITION. The word types of the core (spec/00_scope.md R8, spec/10_state.md R21, R23, R24): all values are unsigned. -/

namespace Sys2Proof

/-- A byte: a V register, a timer, a memory byte, the immediate NN (R21, R27, R50, R81). -/
abbrev Byte := BitVec 8

/-- A 16-bit word: PC, I, a stack entry, an instruction word (R23, R24, R25, R80). -/
abbrev Word := BitVec 16

/-- A 4-bit field naming a V register, or a 4-bit key index (R21, R81, R115). -/
abbrev Reg := BitVec 4

/-- The 12-bit address field NNN (R81). -/
abbrev Addr12 := BitVec 12

end Sys2Proof
end

