-- ==== Sys2Proof/Syntax.lean ====
section
/-! DEFINITION. The instructions: one constructor per row of spec/30_encoding.md R85 (spec/opcode_table.json), with the
fields of R81 and R82 as its operands. Every operand is exactly as wide as its field, so no term has an operand that
its encoding cannot hold. -/

namespace Sys2Proof

/-- The 32 instructions of R85, in the table's order. -/
inductive Instr where
  /-- CLS, 00E0 (R130). -/
  | cls
  /-- RET, 00EE (R132). -/
  | ret
  /-- JP, 1NNN (R133). -/
  | jp (nnn : Addr12)
  /-- CALL, 2NNN (R134). -/
  | call (nnn : Addr12)
  /-- SE_imm, 3XNN (R136). -/
  | seImm (x : Reg) (nn : Byte)
  /-- SNE_imm, 4XNN (R137). -/
  | sneImm (x : Reg) (nn : Byte)
  /-- SE_reg, 5XY0 (R138). -/
  | seReg (x y : Reg)
  /-- LD_imm, 6XNN (R150). -/
  | ldImm (x : Reg) (nn : Byte)
  /-- ADD_imm, 7XNN (R151). -/
  | addImm (x : Reg) (nn : Byte)
  /-- LD_reg, 8XY0 (R153). -/
  | ldReg (x y : Reg)
  /-- OR, 8XY1 (R154). -/
  | orReg (x y : Reg)
  /-- AND, 8XY2 (R155). -/
  | andReg (x y : Reg)
  /-- XOR, 8XY3 (R156). -/
  | xorReg (x y : Reg)
  /-- ADD_reg, 8XY4 (R157). -/
  | addReg (x y : Reg)
  /-- SUB, 8XY5 (R158). -/
  | sub (x y : Reg)
  /-- SHR, 8XY6 (R159); the Y field is kept, since P_SHIFT_SRC = VY reads it (R82). -/
  | shr (x y : Reg)
  /-- SHL, 8XYE (R160); the Y field is kept, since P_SHIFT_SRC = VY reads it (R82). -/
  | shl (x y : Reg)
  /-- SNE_reg, 9XY0 (R162). -/
  | sneReg (x y : Reg)
  /-- LD_I, ANNN (R170). -/
  | ldI (nnn : Addr12)
  /-- RND, CXNN (R171). -/
  | rnd (x : Reg) (nn : Byte)
  /-- DRW, DXYN (R173). -/
  | drw (x y : Reg) (n : BitVec 4)
  /-- SKP, EX9E (R190). -/
  | skp (x : Reg)
  /-- SKNP, EXA1 (R191). -/
  | sknp (x : Reg)
  /-- LD_Vx_DT, FX07 (R193). -/
  | ldVxDt (x : Reg)
  /-- LD_Vx_K, FX0A (R194). -/
  | ldVxK (x : Reg)
  /-- LD_DT_Vx, FX15 (R195). -/
  | ldDtVx (x : Reg)
  /-- LD_ST_Vx, FX18 (R196). -/
  | ldStVx (x : Reg)
  /-- ADD_I_Vx, FX1E (R197). -/
  | addIVx (x : Reg)
  /-- LD_F_Vx, FX29 (R198). -/
  | ldFVx (x : Reg)
  /-- LD_B_Vx, FX33 (R199). -/
  | ldBVx (x : Reg)
  /-- LD_mem_Vx, FX55 (R200). -/
  | ldMemVx (x : Reg)
  /-- LD_Vx_mem, FX65 (R201). -/
  | ldVxMem (x : Reg)
deriving DecidableEq, Repr

end Sys2Proof
end

