-- ==== Sys2Proof/Decode.lean ====
section
/-! DEFINITION. Decoding (spec/30_encoding.md R80 to R88): total on any bytes, rejecting by name; and after it the
encoder, written from the layouts of R82. -/

namespace Sys2Proof

/-- Why no instruction is read. The spec has one verdict, DECODE_ERROR (R84); its illegal words come in the rows of
R86, and each row has its name here. `tooShort` is no illegal word: fewer than the two bytes of an instruction word
(R80) were given, which the fetch of R104 never does. -/
inductive DecodeError where
  | tooShort
  | family0
  | family5
  | family8
  | family9
  | familyB
  | familyE
  | familyF
deriving DecidableEq, Repr

/-- F, the opcode family: w[15:12] (R81). -/
def famOf (w : Word) : BitVec 4 := w.extractLsb' 12 4

/-- X: w[11:8] (R81). -/
def xOf (w : Word) : Reg := w.extractLsb' 8 4

/-- Y: w[7:4] (R81). -/
def yOf (w : Word) : Reg := w.extractLsb' 4 4

/-- N: w[3:0] (R81). -/
def nOf (w : Word) : BitVec 4 := w.extractLsb' 0 4

/-- NN: w[7:0] (R81). -/
def nnOf (w : Word) : Byte := w.extractLsb' 0 8

/-- NNN: w[11:0] (R81). -/
def nnnOf (w : Word) : Addr12 := w.extractLsb' 0 12

/-- Family 8 (R84, R152): the sub-opcode is the nibble N. -/
def decodeFamily8 (x y : Reg) (n : BitVec 4) : Except DecodeError Instr :=
  if n = 0x0 then .ok (.ldReg x y)
  else if n = 0x1 then .ok (.orReg x y)
  else if n = 0x2 then .ok (.andReg x y)
  else if n = 0x3 then .ok (.xorReg x y)
  else if n = 0x4 then .ok (.addReg x y)
  else if n = 0x5 then .ok (.sub x y)
  else if n = 0x6 then .ok (.shr x y)
  else if n = 0xE then .ok (.shl x y)
  else .error .family8

/-- Family E (R84, R192): the sub-opcode is the byte NN. -/
def decodeFamilyE (x : Reg) (nn : Byte) : Except DecodeError Instr :=
  if nn = 0x9E then .ok (.skp x)
  else if nn = 0xA1 then .ok (.sknp x)
  else .error .familyE

/-- Family F (R84, R202): the sub-opcode is the byte NN. -/
def decodeFamilyF (x : Reg) (nn : Byte) : Except DecodeError Instr :=
  if nn = 0x07 then .ok (.ldVxDt x)
  else if nn = 0x0A then .ok (.ldVxK x)
  else if nn = 0x15 then .ok (.ldDtVx x)
  else if nn = 0x18 then .ok (.ldStVx x)
  else if nn = 0x1E then .ok (.addIVx x)
  else if nn = 0x29 then .ok (.ldFVx x)
  else if nn = 0x33 then .ok (.ldBVx x)
  else if nn = 0x55 then .ok (.ldMemVx x)
  else if nn = 0x65 then .ok (.ldVxMem x)
  else .error .familyF

/-- `decode(w)` of R84: total on all 65536 words. It depends on the word alone (R88). -/
def decode (w : Word) : Except DecodeError Instr :=
  if famOf w = 0x0 then
    if w = 0x00E0 then .ok .cls else if w = 0x00EE then .ok .ret else .error .family0
  else if famOf w = 0x1 then .ok (.jp (nnnOf w))
  else if famOf w = 0x2 then .ok (.call (nnnOf w))
  else if famOf w = 0x3 then .ok (.seImm (xOf w) (nnOf w))
  else if famOf w = 0x4 then .ok (.sneImm (xOf w) (nnOf w))
  else if famOf w = 0x5 then if nOf w = 0 then .ok (.seReg (xOf w) (yOf w)) else .error .family5
  else if famOf w = 0x6 then .ok (.ldImm (xOf w) (nnOf w))
  else if famOf w = 0x7 then .ok (.addImm (xOf w) (nnOf w))
  else if famOf w = 0x8 then decodeFamily8 (xOf w) (yOf w) (nOf w)
  else if famOf w = 0x9 then if nOf w = 0 then .ok (.sneReg (xOf w) (yOf w)) else .error .family9
  else if famOf w = 0xA then .ok (.ldI (nnnOf w))
  else if famOf w = 0xB then .error .familyB
  else if famOf w = 0xC then .ok (.rnd (xOf w) (nnOf w))
  else if famOf w = 0xD then .ok (.drw (xOf w) (yOf w) (nOf w))
  else if famOf w = 0xE then decodeFamilyE (xOf w) (nnOf w)
  else decodeFamilyF (xOf w) (nnOf w)

/-- A word from two bytes, big-endian: the byte at the lower address is w[15:8] (R54). -/
def wordOfBytes (hi lo : Byte) : Word := hi ++ lo

/-- The two bytes of a word as the memory holds them, the lower address first (R54). -/
def bytesOfWord (w : Word) : List Byte := [w.extractLsb' 8 8, w.extractLsb' 0 8]

/-- Reads one instruction off a list of bytes and gives back the rest: every instruction is two bytes (R80). -/
def decodeBytes : List Byte → Except DecodeError (Instr × List Byte)
  | hi :: lo :: rest =>
    match decode (wordOfBytes hi lo) with
    | .ok i => .ok (i, rest)
    | .error e => .error e
  | _ => .error .tooShort

/-- The word of an instruction, from the layouts of R82 and the digits of R85. -/
def encode : Instr → Word
  | .cls          => 0x00E0#16
  | .ret          => 0x00EE#16
  | .jp nnn       => 0x1#4 ++ nnn
  | .call nnn     => 0x2#4 ++ nnn
  | .seImm x nn   => 0x3#4 ++ x ++ nn
  | .sneImm x nn  => 0x4#4 ++ x ++ nn
  | .seReg x y    => 0x5#4 ++ x ++ y ++ 0x0#4
  | .ldImm x nn   => 0x6#4 ++ x ++ nn
  | .addImm x nn  => 0x7#4 ++ x ++ nn
  | .ldReg x y    => 0x8#4 ++ x ++ y ++ 0x0#4
  | .orReg x y    => 0x8#4 ++ x ++ y ++ 0x1#4
  | .andReg x y   => 0x8#4 ++ x ++ y ++ 0x2#4
  | .xorReg x y   => 0x8#4 ++ x ++ y ++ 0x3#4
  | .addReg x y   => 0x8#4 ++ x ++ y ++ 0x4#4
  | .sub x y      => 0x8#4 ++ x ++ y ++ 0x5#4
  | .shr x y      => 0x8#4 ++ x ++ y ++ 0x6#4
  | .shl x y      => 0x8#4 ++ x ++ y ++ 0xE#4
  | .sneReg x y   => 0x9#4 ++ x ++ y ++ 0x0#4
  | .ldI nnn      => 0xA#4 ++ nnn
  | .rnd x nn     => 0xC#4 ++ x ++ nn
  | .drw x y n    => 0xD#4 ++ x ++ y ++ n
  | .skp x        => 0xE#4 ++ x ++ 0x9E#8
  | .sknp x       => 0xE#4 ++ x ++ 0xA1#8
  | .ldVxDt x     => 0xF#4 ++ x ++ 0x07#8
  | .ldVxK x      => 0xF#4 ++ x ++ 0x0A#8
  | .ldDtVx x     => 0xF#4 ++ x ++ 0x15#8
  | .ldStVx x     => 0xF#4 ++ x ++ 0x18#8
  | .addIVx x     => 0xF#4 ++ x ++ 0x1E#8
  | .ldFVx x      => 0xF#4 ++ x ++ 0x29#8
  | .ldBVx x      => 0xF#4 ++ x ++ 0x33#8
  | .ldMemVx x    => 0xF#4 ++ x ++ 0x55#8
  | .ldVxMem x    => 0xF#4 ++ x ++ 0x65#8

/-- The bytes of the instruction whose bits are w, numbered as the opcode table numbers them (bit 0 the least
significant of the one word), every bit from nbits on being 0; laid out big-endian (R54). -/
def tableWordBytes (nbits w : Nat) : List Byte := bytesOfWord (BitVec.ofNat 16 (w % 2 ^ nbits))

/-- The instruction the decoder reads from `tableWordBytes`. -/
def decodeTableWord (nbits w : Nat) : Option Instr :=
  match decodeBytes (tableWordBytes nbits w) with
  | .ok (i, _) => some i
  | .error _ => none

end Sys2Proof
end

