-- ==== Sys2Proof/Config.lean ====
section
/-! DEFINITION. What an implementation fixes (spec/00_scope.md R6, R7) and the free value of the random source (R171).
The fixed sizes are numbers; the parameters with a domain are the structure `Params`, whose default set is
`Machine.defaultParams`. -/

namespace Sys2Proof

/-- MEM_SIZE: addresses 0x000..0xFFF (R6, R50). -/
def Config.memSize : Nat := 4096

/-- PC_RESET, which is also PROGRAM_BASE (R6, R23, R264). -/
def Config.programBase : Nat := 0x200

/-- MAX_IMAGE = 4096 - 512 (R6, R264). -/
def Config.maxImage : Nat := 3584

/-- FONT_BASE (R6, R33). -/
def Config.fontBase : Nat := 0x000

/-- P_SPRITE_ROW_BITS in (8, 4): how many columns of a sprite row DXYN draws (R6, R173, R174). -/
inductive SpriteRowBits where
  | eight
  | four
deriving DecidableEq, Repr

/-- P_SHL_FLAG_SHIFT in (7, 15): which bit 8XYE puts into VF (R6, R160). -/
inductive ShlFlagShift where
  | seven
  | fifteen
deriving DecidableEq, Repr

/-- P_SUB_FLAG: the polarity of the flag of 8XY5 (R6, R158). -/
inductive SubFlag where
  | noBorrowGe
  | noBorrowGt
  | borrow
deriving DecidableEq, Repr

/-- P_SHIFT_SRC: the register that 8XY6 and 8XYE shift (R6, R159, R160). -/
inductive ShiftSrc where
  | vx
  | vy
deriving DecidableEq, Repr

/-- The parameters of R6 that have a domain. An instance fixes all of them at construction, and they never change
during a run (R7). `clsSetsDirty` is P_CLS_SETS_DIRTY; `font` is FONT[0..79]. -/
structure Params where
  font          : Vector Byte 80
  spriteRowBits : SpriteRowBits
  shlFlagShift  : ShlFlagShift
  subFlag       : SubFlag
  shiftSrc      : ShiftSrc
  clsSetsDirty  : Bool
deriving DecidableEq, Repr

/-- RAND (R6, R171, D22): the byte the random source gives at its n-th draw. A FREE VALUE: no body, no law, so a
statement about it holds for every generator (notes/assumptions/4.md). -/
opaque Config.randByte : Nat → Byte

end Sys2Proof
end

