-- ==== Sys2Proof/Machine/Defaults.lean ====
section
/-! DEFINITION. The default parameters (spec/00_scope.md R6, R7) and the default font (spec/10_state.md R33). -/

namespace Sys2Proof.Machine

/-- The default FONT of R33: 16 glyphs of 5 bytes, glyph 0 first. The byte values are general knowledge that the spec
gives as the parameter's default. Mark: PRESUMED, unsafe (notes/assumptions/1.md). -/
def defaultFont : Vector Byte 80 :=
  #v[0xF0, 0x90, 0x90, 0x90, 0xF0,
     0x20, 0x60, 0x20, 0x20, 0x70,
     0xF0, 0x10, 0xF0, 0x80, 0xF0,
     0xF0, 0x10, 0xF0, 0x10, 0xF0,
     0x90, 0x90, 0xF0, 0x10, 0x10,
     0xF0, 0x80, 0xF0, 0x10, 0xF0,
     0xF0, 0x80, 0xF0, 0x90, 0xF0,
     0xF0, 0x10, 0x20, 0x40, 0x40,
     0xF0, 0x90, 0xF0, 0x90, 0xF0,
     0xF0, 0x90, 0xF0, 0x10, 0xF0,
     0xF0, 0x90, 0xF0, 0x90, 0x90,
     0xE0, 0x90, 0xE0, 0x90, 0xE0,
     0xF0, 0x80, 0x80, 0x80, 0xF0,
     0xE0, 0x90, 0x90, 0x90, 0xE0,
     0xF0, 0x80, 0xF0, 0x80, 0xF0,
     0xF0, 0x80, 0xF0, 0x80, 0x80]

/-- The default set of R7: (8, 7, NO_BORROW_GE, VX, false), with the default font.
Mark: DESIGN CHOICE, unsafe where an implementation chose otherwise (notes/assumptions/3.md). -/
def defaultParams : Params :=
  { font := defaultFont, spriteRowBits := .eight, shlFlagShift := .seven, subFlag := .noBorrowGe, shiftSrc := .vx,
    clsSetsDirty := false }

end Sys2Proof.Machine
end

