-- ==== Sys2Proof/Machine/State.lean ====
section
/-! DEFINITION. The state of the core (spec/10_state.md R20 to R40), its value after Reset (spec/70 R260), and the
reasons a step could stop. -/

namespace Sys2Proof.Machine

/-- The run state of R34. -/
inductive RunState where
  | running
  | awaitingKey
  | faulted
deriving DecidableEq, Repr

/-- The fault causes of R36 and R222; `none` is the cause NONE of a core that has not faulted. -/
inductive Cause where
  | none
  | decode
  | stackOverflow
  | stackUnderflow
  | address
deriving DecidableEq, Repr

/-- The fault record of R36: the cause, pc0 and word of the failing instruction, and the out-of-range address or key
index. -/
structure FaultRecord where
  cause : Cause
  pc    : Word
  word  : Word
  addr  : Word
deriving DecidableEq, Repr

/-- The record before any fault (R36, R260). -/
def FaultRecord.clear : FaultRecord := { cause := .none, pc := 0, word := 0, addr := 0 }

/-- The 4096 bytes of R32, R50, as a list of (address, byte) pairs: addresses strictly rising, and no entry equal to
what an unlisted address reads as (`Memory.background`). -/
abbrev Memory := List Host.Cell

/-- The pixels of R30: `fb[x][y]`, column x in 0..63, row y in 0..31; true is lit. -/
abbrev Framebuffer := Vector (Vector Bool 32) 64

/-- The state tuple of R20. The last two fields are the model's own: `params` holds the parameters of R6, which no
transaction changes (notes/assumptions/3.md), and `draws` counts the random draws taken (notes/assumptions/4.md). -/
structure State where
  /-- mem[0..4095] (R32). -/
  mem         : Memory
  /-- V[0..15] (R21). -/
  v           : Vector Byte 16
  /-- The index register I (R24). -/
  i           : Word
  /-- The program counter PC (R23). -/
  pc          : Word
  /-- stack[0..15] (R25). -/
  stack       : Vector Word 16
  /-- The stack pointer SP, 0..16 (R26). -/
  sp          : Fin 17
  /-- The delay timer DT (R27). -/
  dt          : Byte
  /-- The sound timer ST (R28). -/
  st          : Byte
  /-- keys[0..15], true is pressed (R29). -/
  keys        : Vector Bool 16
  /-- The framebuffer fb (R30). -/
  fb          : Framebuffer
  /-- The dirty flag needs_render (R31). -/
  needsRender : Bool
  /-- run_state (R34). -/
  runState    : RunState
  /-- wait_reg (R35). -/
  waitReg     : Reg
  /-- The fault record (R36). -/
  fault       : FaultRecord
  /-- loaded (R20, R264). -/
  loaded      : Bool
  /-- The parameters of R6, fixed for the instance (R7). The model's own field. -/
  params      : Params
  /-- How many random bytes have been drawn. The model's own field. -/
  draws       : Nat
deriving DecidableEq, Repr

/-- Why a step would stop with a fault of the model. There is no such reason: the spec's faults (R222) are a NEXT state,
the terminal run state Faulted with its record (R221), and every state has a defined Step
(spec/93_implementation_defined.md, Part 1). -/
inductive Fault where
deriving DecidableEq, Repr

/-- Why a step has no meaning. -/
inductive Refusal where
  /-- An instruction that has no meaning yet, by its mnemonic; raised only by an arm of `exec`, of which none raises it
  now. Safe: nothing is claimed of it. -/
  | notModelled (mnemonic : String)
deriving DecidableEq, Repr

/-- What executing an instruction answers. -/
abbrev Result := Host.Outcome State Fault Refusal

/-- The state right after Reset (R260), with the default parameters of R7 (notes/assumptions/3.md). Memory lists
nothing: its reset contents are what unlisted addresses read as. -/
def State.reset : State :=
  { mem := []
    v := Vector.replicate 16 0
    i := 0
    pc := 0x200
    stack := Vector.replicate 16 0
    sp := 0
    dt := 0
    st := 0
    keys := Vector.replicate 16 false
    fb := Vector.replicate 64 (Vector.replicate 32 false)
    needsRender := false
    runState := .running
    waitReg := 0
    fault := FaultRecord.clear
    loaded := false
    params := defaultParams
    draws := 0 }

end Sys2Proof.Machine
end

