-- ==== Sys2Proof/Machine/Ops.lean ====
section
/-! DEFINITION. The named operations over memory, registers, the stack, the keys, the framebuffer and the random
source, and entering the Faulted state (spec/60_exceptions.md R221), which every fault of the core goes through. -/

namespace Sys2Proof.Machine

/-! ## One named update per field (spec/00_scope.md R9) -/

/-- Replaces the memory. -/
def State.setMem (s : State) (m : Memory) : State := { s with mem := m }

/-- Replaces the whole register file. -/
def State.setV (s : State) (v : Vector Byte 16) : State := { s with v := v }

/-- `I <- v` (R9). -/
def State.setI (s : State) (a : Word) : State := { s with i := a }

/-- `pc <- target` (R9). -/
def State.setPc (s : State) (a : Word) : State := { s with pc := a }

/-- Replaces the call stack and its pointer. -/
def State.setStack (s : State) (st : Vector Word 16) (sp : Fin 17) : State := { s with stack := st, sp := sp }

/-- `DT <- b` (R27). -/
def State.setDt (s : State) (b : Byte) : State := { s with dt := b }

/-- `ST <- b` (R28). -/
def State.setSt (s : State) (b : Byte) : State := { s with st := b }

/-- Replaces the keypad state (R29). -/
def State.setKeys (s : State) (k : Vector Bool 16) : State := { s with keys := k }

/-- Replaces the framebuffer (R30). -/
def State.setFb (s : State) (f : Framebuffer) : State := { s with fb := f }

/-- `needs_render <- b` (R31). -/
def State.setNeedsRender (s : State) (b : Bool) : State := { s with needsRender := b }

/-- `run_state <- r` (R34). -/
def State.setRunState (s : State) (r : RunState) : State := { s with runState := r }

/-- `wait_reg <- x` (R35). -/
def State.setWaitReg (s : State) (x : Reg) : State := { s with waitReg := x }

/-- `loaded <- b` (R20). -/
def State.setLoaded (s : State) (b : Bool) : State := { s with loaded := b }

/-- Advances the count of random draws. -/
def State.setDraws (s : State) (n : Nat) : State := { s with draws := n }

/-! ## Registers (R21, R22) -/

/-- `V[r]`. -/
def State.reg (s : State) (r : Reg) : Byte := s.v[r.toNat]'r.isLt

/-- `V[r] <- b`. -/
def State.setReg (s : State) (r : Reg) (b : Byte) : State := s.setV (s.v.set r.toNat b r.isLt)

/-- The result into VX first and the flag into VF second, so that VF ends holding the flag when X = F (R152 (b)). -/
def State.setResultAndFlag (s : State) (x : Reg) (result flag : Byte) : State := (s.setReg x result).setReg 0xF flag

/-- `for i in k ..: V[i] <- the bytes` in ascending order (R201). -/
def writeRegs (v : Vector Byte 16) : Nat → List Byte → Vector Byte 16
  | _, [] => v
  | k, b :: bs => writeRegs (v.setIfInBounds k b) (k + 1) bs

/-- The bytes of V0..VX in ascending order (R200). -/
def State.regsUpTo (s : State) (x : Reg) : List Byte := s.v.toList.take (x.toNat + 1)

/-! ## Memory (spec/20_memory.md) -/

/-- What an address that the list does not name reads as: the reset contents, the default font at 0x000..0x04F and 0x00
above it (R32, R33, R52; notes/assumptions/5.md). -/
def Memory.background (a : Nat) : Byte := defaultFont.toList.getD a 0

/-- The canonical form: addresses strictly rising, all in 0x000..0xFFF, no entry equal to the background. -/
abbrev Memory.wf (m : Memory) : Prop :=
  m.Pairwise (fun c d => c.1 < d.1) ∧ ∀ c ∈ m, c.1 < Config.memSize ∧ c.2 ≠ Memory.background c.1

/-- The byte at an address: `mem[a]`. -/
def Memory.read : Memory → Nat → Byte
  | [], a => Memory.background a
  | (b, w) :: m, a => if a = b then w else Memory.read m a

/-- Lists an address with a byte, in its place in the rising order. -/
def Memory.put : Memory → Nat → Byte → Memory
  | [], a, v => [(a, v)]
  | (b, w) :: m, a, v =>
    if a < b then (a, v) :: (b, w) :: m
    else if a = b then (a, v) :: m
    else (b, w) :: Memory.put m a v

/-- Takes an address off the list. -/
def Memory.unlist (m : Memory) (a : Nat) : Memory := m.filter (fun c => c.1 != a)

/-- `mem[a] <- v`, keeping the canonical form. An address above 0xFFF does not exist and nothing is written (R51). -/
def Memory.write (m : Memory) (a : Nat) (v : Byte) : Memory :=
  if a < Config.memSize then
    if v = Memory.background a then Memory.unlist m a else Memory.put m a v
  else m

/-- Writes bytes at ascending addresses from a (R53). -/
def Memory.writeBytes (m : Memory) (a : Nat) : List Byte → Memory
  | [] => m
  | b :: bs => Memory.writeBytes (Memory.write m a b) (a + 1) bs

/-- The bounds rule for n byte accesses from a: the last address, a natural-number sum that never wraps, is at most
0xFFF (R51, R173, R199, R200, R201). No access needs no bound. -/
def accessOk (a n : Nat) : Bool := decide (n = 0 ∨ a + n ≤ Config.memSize)

/-- The lowest out-of-range address of an access that `accessOk` turns away: `max(a, 0x1000)` (R104, R173, R199). -/
def firstOutOfRange (a : Nat) : Word := BitVec.ofNat 16 (max a Config.memSize)

/-- MemRead of n bytes from a in ascending order (R53); none when the bounds rule turns it away, and then nothing is
read. -/
def State.loadBytes (s : State) (a n : Nat) : Option (List Byte) :=
  if accessOk a n then some ((List.range n).map (fun k => s.mem.read (a + k))) else none

/-- MemWrite of the bytes from a in ascending order (R53); none when the bounds rule turns it away, and then nothing is
written. -/
def State.storeBytes (s : State) (a : Nat) (bytes : List Byte) : Option State :=
  if accessOk a bytes.length then some (s.setMem (s.mem.writeBytes a bytes)) else none

/-! ## The call stack (spec/10_state.md R25, R26) -/

/-- A push writes stack[SP] and then increments SP; none when SP = 16. -/
def State.push (s : State) (a : Word) : Option State :=
  if h : s.sp.val < 16 then some (s.setStack (s.stack.set s.sp.val a h) ⟨s.sp.val + 1, by omega⟩) else none

/-- A pop decrements SP and then reads stack[SP], which keeps its value; none when SP = 0. -/
def State.pop (s : State) : Option (Word × State) :=
  if h : 0 < s.sp.val then
    some (s.stack[s.sp.val - 1]'(by omega), s.setStack s.stack ⟨s.sp.val - 1, by omega⟩)
  else none

/-! ## Keys (R29) -/

/-- `keys[k]`. -/
def State.key (s : State) (k : Reg) : Bool := s.keys[k.toNat]'k.isLt

/-- `keys[k] <- pressed`. -/
def State.setKey (s : State) (k : Reg) (pressed : Bool) : State := s.setKeys (s.keys.set k.toNat pressed k.isLt)

/-! ## The framebuffer (R30, R173) -/

/-- A pixel by its column and its row. -/
abbrev Point := Fin 64 × Fin 32

/-- `fb[x][y]`. -/
def Framebuffer.pixel (f : Framebuffer) (p : Point) : Bool := f[p.1][p.2]

/-- `fb[x][y] <- fb[x][y] XOR 1`. -/
def Framebuffer.flip (f : Framebuffer) (p : Point) : Framebuffer :=
  f.set p.1.val (f[p.1].set p.2.val (!f[p.1][p.2]) p.2.isLt) p.1.isLt

/-- Every pixel unlit. -/
def Framebuffer.blank : Framebuffer := Vector.replicate 64 (Vector.replicate 32 false)

/-- One lit sprite bit: a collision if the pixel is lit, then the pixel is flipped (R173). -/
def plot (acc : Framebuffer × Bool) (p : Point) : Framebuffer × Bool := (acc.1.flip p, acc.2 || acc.1.pixel p)

/-- The pixels of one sprite row, left to right: bit 7 - c of the byte is column c, and the column and the row wrap
modulo 64 and 32 (R173). -/
def rowPoints (width x0 y : Nat) (b : Byte) : List Point :=
  ((List.range width).filter (fun c => b.getLsbD (7 - c))).map (fun c => (Fin.ofNat 64 (x0 + c), Fin.ofNat 32 y))

/-- The pixels of a sprite in the order R173 visits them, the top row at y. -/
def spritePoints (width x0 : Nat) : Nat → List Byte → List Point
  | _, [] => []
  | y, b :: bs => rowPoints width x0 y b ++ spritePoints width x0 (y + 1) bs

/-- The drawing engine of R173: XORs the sprite onto the framebuffer; the Bool is the collision. -/
def drawSprite (f : Framebuffer) (width x0 y0 : Nat) (bytes : List Byte) : Framebuffer × Bool :=
  (spritePoints width x0 y0 bytes).foldl plot (f, false)

/-! ## The random source (R171) -/

/-- `RandByte()`: the next draw, a free value, and the state that has taken it. -/
def State.drawByte (s : State) : Byte × State := (Config.randByte s.draws, s.setDraws (s.draws + 1))

/-! ## Skip (spec/40_cycle.md R119) -/

/-- `if c: skip`: PC <- (PC + 2) mod 2^16 on the PC that the fetch already advanced. -/
def State.skipIf (s : State) (c : Bool) : State := if c then s.setPc (s.pc + 2) else s

/-! ## Taking a fault (spec/60_exceptions.md R221) -/

/-- `raise Fault(cause, pc, word, addr)`: writes the record and enters Faulted; nothing else changes (R221). There is no
return beside it: Faulted is terminal, and only Reset leaves it (R225). -/
def State.raiseFault (s : State) (cause : Cause) (pc word addr : Word) : State :=
  { s with runState := .faulted, fault := { cause := cause, pc := pc, word := word, addr := addr } }

/-- The fault of an instruction that executes: pc0 is PC - 2, since the fetch has advanced PC by 2 (R104), and w is the
instruction's own word, since no bit of a legal word is lost in decoding. Mark: DEDUCED, safe (notes/assumptions/7.md). -/
def State.faultIn (s : State) (i : Instr) (cause : Cause) (addr : Word) : State :=
  s.raiseFault cause (s.pc - 2) (encode i) addr

/-! ## The spec's numeric codes (R36, R38) -/

/-- The code of a fault cause (R36, R222). -/
def Cause.code : Cause → Nat
  | .none => 0
  | .decode => 1
  | .stackOverflow => 2
  | .stackUnderflow => 3
  | .address => 4

/-- The code of a run state (R38). -/
def RunState.code : RunState → Nat
  | .running => 0
  | .awaitingKey => 1
  | .faulted => 2

end Sys2Proof.Machine
end

