-- ==== Sys2Proof/Machine/Operands.lean ====
section
/-! DEFINITION. Operand assembly and the results of the arithmetic (spec/30_encoding.md R83, spec/42, spec/44): exact
natural-number arithmetic, narrowed at the end (spec/00_scope.md R8). -/

namespace Sys2Proof.Machine

/-- `zext_16` of a register value (R83). -/
def zext16 (b : Byte) : Word := b.setWidth 16

/-- `zext_16(NNN)` (R83). -/
def zextAddr (a : Addr12) : Word := a.setWidth 16

/-- `zext_8` of a key index or of one bit (R8, R116, R159). -/
def zext8 {n : Nat} (k : BitVec n) : Byte := k.setWidth 8

/-- The operand that 8XY6 and 8XYE shift: VX or VY by P_SHIFT_SRC (R159, R160). -/
def shiftOperand (s : State) (x y : Reg) : Byte :=
  match s.params.shiftSrc with
  | .vx => s.reg x
  | .vy => s.reg y

/-- `(a + b) mod 256` (R151, R157). -/
def addResult (a b : Byte) : Byte := BitVec.ofNat 8 ((a.toNat + b.toNat) % 256)

/-- `(a + 256 - b) mod 256` (R158). -/
def subResult (a b : Byte) : Byte := BitVec.ofNat 8 ((a.toNat + 256 - b.toNat) % 256)

/-- `s >> 1`, bit 7 of the result 0 (R159). -/
def shrResult (a : Byte) : Byte := a >>> 1

/-- `(s * 2) mod 256`, bit 0 of the result 0 (R160). -/
def shlResult (a : Byte) : Byte := BitVec.ofNat 8 (a.toNat * 2 % 256)

/-- `(I + zext_16(V[X])) mod 2^16` (R197). -/
def indexSum (i : Word) (b : Byte) : Word := BitVec.ofNat 16 ((i.toNat + (zext16 b).toNat) % 2 ^ 16)

/-- `5 * zext_16(V[X])` (R198). -/
def glyphAddress (b : Byte) : Word := BitVec.ofNat 16 (5 * (zext16 b).toNat)

/-- The decimal digits: hundreds, tens, ones (R199). -/
def decimalDigits (b : Byte) : List Byte :=
  [BitVec.ofNat 8 (b.toNat / 100), BitVec.ofNat 8 (b.toNat / 10 % 10), BitVec.ofNat 8 (b.toNat % 10)]

/-- The columns of a sprite row that are drawn: P_SPRITE_ROW_BITS (R173, R174). -/
def spriteWidth (p : Params) : Nat :=
  match p.spriteRowBits with
  | .eight => 8
  | .four => 4

/-- One step of a countdown timer: it stays at 0 (R103). -/
def decayTimer (t : Byte) : Byte := if t = 0 then 0 else t - 1

end Sys2Proof.Machine
end

