-- ==== Sys2Proof/Machine/Cycle.lean ====
section
/-! DEFINITION. The parts of Step before the instruction executes (spec/40_cycle.md R100 to R105, R107, R110): the load
window closes, the flag is cleared, the timers decay, the word is fetched and decoded. -/

namespace Sys2Proof.Machine

/-- Part 1 of a Running Step: needs_render is cleared (R102). -/
def State.clearDirty (s : State) : State := s.setNeedsRender false

/-- Part 2 of a Running Step: both timers decay, each once (R103). -/
def State.decay (s : State) : State := (s.setDt (decayTimer s.dt)).setSt (decayTimer s.st)

/-- The state at the fetch of a Running Step: `loaded` set, the flag cleared, the timers decayed (R100). -/
def State.beforeFetch (s : State) : State := ((s.setLoaded true).clearDirty).decay

/-- Part 3: the word at PC and PC + 1, big-endian; none when PC + 1 > 0xFFF (R104). -/
def State.fetchWord (s : State) : Option Word :=
  if accessOk s.pc.toNat 2 then some (wordOfBytes (s.mem.read s.pc.toNat) (s.mem.read (s.pc.toNat + 1))) else none

/-- `PC <- (pc0 + 2) mod 2^16` (R104). -/
def State.advancePc (s : State) : State := s.setPc (s.pc + 2)

/-- What the parts before execute leave: the Step is over in this state, or this instruction executes in it. -/
inductive Fetched where
  | done (s : State)
  | execute (i : Instr) (s : State)
deriving DecidableEq, Repr

/-- Parts 3 and 4 of a Running Step (R104, R105): a word that cannot be fetched is the fault ADDRESS with PC left at
pc0; an illegal word is the fault DECODE after the PC advance. -/
def fetchDecode (s : State) : Fetched :=
  match s.fetchWord with
  | none => .done (s.raiseFault .address s.pc 0 (firstOutOfRange s.pc.toNat))
  | some w =>
    match decode w with
    | .error _ => .done (s.advancePc.raiseFault .decode s.pc w 0)
    | .ok i => .execute i s.advancePc

/-- Step up to the execute arm (R100): outside Running nothing happens beyond `loaded <- true` (R101). -/
def beginStep (s : State) : Fetched :=
  match s.runState with
  | .running => fetchDecode s.beforeFetch
  | .awaitingKey => .done (s.setLoaded true)
  | .faulted => .done (s.setLoaded true)

/-- The per-Step output of R37 and R110. -/
structure StepOutput where
  soundStopped : Bool
deriving DecidableEq, Repr

/-- SoundStopped is emitted by a Running Step whose decay takes a nonzero ST to 0, whatever the rest of the Step does
(R100, R107). -/
def stepOutput (s : State) : StepOutput :=
  { soundStopped := decide (s.runState = .running ∧ s.st ≠ 0 ∧ decayTimer s.st = 0) }

/-- The state with the bytes of a table word at PC, where the fetch of R104 reads them. -/
def State.placeAtPc (s : State) (bytes : List Byte) : State := s.setMem (s.mem.writeBytes s.pc.toNat bytes)

end Sys2Proof.Machine
end

