-- ==== Sys2Proof/Machine/Flags.lean ====
section
/-! DEFINITION. The values written into VF as a flag (spec/10_state.md R22; spec/42 R157 to R160; spec/43 R173). -/

namespace Sys2Proof.Machine

/-- 0x01 or 0x00. -/
def flagByte (c : Bool) : Byte := if c then 0x01 else 0x00

/-- 8XY4: the carry out of bit 7 (R157). -/
def carryFlag (a b : Byte) : Byte := flagByte (decide (a.toNat + b.toNat > 255))

/-- 8XY5: the borrow indication with the polarity of P_SUB_FLAG (R158). -/
def borrowFlag (p : Params) (a b : Byte) : Byte :=
  match p.subFlag with
  | .noBorrowGe => flagByte (decide (a.toNat ≥ b.toNat))
  | .noBorrowGt => flagByte (decide (a.toNat > b.toNat))
  | .borrow => flagByte (decide (a.toNat < b.toNat))

/-- 8XY6: `zext_8(s[0])`, the bit shifted out (R159). -/
def shrFlag (a : Byte) : Byte := zext8 (a.extractLsb' 0 1)

/-- 8XYE: `zext_8(s[7])`, or under P_SHL_FLAG_SHIFT = 15 `zext_8((zext_16(s) >> 15) & 1)` (R160). -/
def shlFlag (p : Params) (a : Byte) : Byte :=
  match p.shlFlagShift with
  | .seven => zext8 (a.extractLsb' 7 1)
  | .fifteen => zext8 ((zext16 a >>> 15) &&& 1)

/-- DXYN: the collision (R173). -/
def collisionFlag (collision : Bool) : Byte := flagByte collision

end Sys2Proof.Machine
end

