-- ==== Sys2Proof/Machine/Families0to5.lean ====
section
/-! DEFINITION. Families 0 to 5 (spec/41_families_0-5.md): screen clear, return, jump, call, skips. Every meaning runs
after the fetch, with PC = pc0 + 2 (spec/40_cycle.md R106). -/

namespace Sys2Proof.Machine

/-- CLS, 00E0 (R130). -/
def execCls (s : State) : Result :=
  .next ((s.setFb Framebuffer.blank).setNeedsRender (s.needsRender || s.params.clsSetsDirty))

/-- RET, 00EE (R132). -/
def execRet (s : State) : Result :=
  match s.pop with
  | none => .next (s.faultIn .ret .stackUnderflow 0)
  | some (a, t) => .next (t.setPc a)

/-- JP, 1NNN (R133). -/
def execJp (nnn : Addr12) (s : State) : Result := .next (s.setPc (zextAddr nnn))

/-- CALL, 2NNN (R134): the pushed PC is pc0 + 2. -/
def execCall (nnn : Addr12) (s : State) : Result :=
  match s.push s.pc with
  | none => .next (s.faultIn (.call nnn) .stackOverflow 0)
  | some t => .next (t.setPc (zextAddr nnn))

/-- SE_imm, 3XNN (R136). -/
def execSeImm (x : Reg) (nn : Byte) (s : State) : Result := .next (s.skipIf (s.reg x == nn))

/-- SNE_imm, 4XNN (R137). -/
def execSneImm (x : Reg) (nn : Byte) (s : State) : Result := .next (s.skipIf (s.reg x != nn))

/-- SE_reg, 5XY0 (R138). -/
def execSeReg (x y : Reg) (s : State) : Result := .next (s.skipIf (s.reg x == s.reg y))

end Sys2Proof.Machine
end

