-- ==== Sys2Proof/Machine/Families6to9.lean ====
section
/-! DEFINITION. Families 6 to 9 (spec/42_families_6-9.md): immediate load and add, the register ALU, the register skip.
Operands are read before any write (R152 (a)). -/

namespace Sys2Proof.Machine

/-- LD_imm, 6XNN (R150). -/
def execLdImm (x : Reg) (nn : Byte) (s : State) : Result := .next (s.setReg x nn)

/-- ADD_imm, 7XNN (R151): no flag. -/
def execAddImm (x : Reg) (nn : Byte) (s : State) : Result := .next (s.setReg x (addResult (s.reg x) nn))

/-- LD_reg, 8XY0 (R153): no flag (R152 (c)). -/
def execLdReg (x y : Reg) (s : State) : Result := .next (s.setReg x (s.reg y))

/-- OR, 8XY1 (R154): no flag (R152 (c)). -/
def execOr (x y : Reg) (s : State) : Result := .next (s.setReg x (s.reg x ||| s.reg y))

/-- AND, 8XY2 (R155): no flag (R152 (c)). -/
def execAnd (x y : Reg) (s : State) : Result := .next (s.setReg x (s.reg x &&& s.reg y))

/-- XOR, 8XY3 (R156): no flag (R152 (c)). -/
def execXor (x y : Reg) (s : State) : Result := .next (s.setReg x (s.reg x ^^^ s.reg y))

/-- ADD_reg, 8XY4 (R157). -/
def execAddReg (x y : Reg) (s : State) : Result :=
  .next (s.setResultAndFlag x (addResult (s.reg x) (s.reg y)) (carryFlag (s.reg x) (s.reg y)))

/-- SUB, 8XY5 (R158). -/
def execSub (x y : Reg) (s : State) : Result :=
  .next (s.setResultAndFlag x (subResult (s.reg x) (s.reg y)) (borrowFlag s.params (s.reg x) (s.reg y)))

/-- SHR, 8XY6 (R159). -/
def execShr (x y : Reg) (s : State) : Result :=
  .next (s.setResultAndFlag x (shrResult (shiftOperand s x y)) (shrFlag (shiftOperand s x y)))

/-- SHL, 8XYE (R160). -/
def execShl (x y : Reg) (s : State) : Result :=
  .next (s.setResultAndFlag x (shlResult (shiftOperand s x y)) (shlFlag s.params (shiftOperand s x y)))

/-- SNE_reg, 9XY0 (R162). -/
def execSneReg (x y : Reg) (s : State) : Result := .next (s.skipIf (s.reg x != s.reg y))

end Sys2Proof.Machine
end

