-- ==== Sys2Proof/Machine/FamiliesAtoD.lean ====
section
/-! DEFINITION. Families A, C and D (spec/43_families_A-D.md): index load, random byte, draw. Family B has no row
(R172). -/

namespace Sys2Proof.Machine

/-- LD_I, ANNN (R170). -/
def execLdI (nnn : Addr12) (s : State) : Result := .next (s.setI (zextAddr nnn))

/-- RND, CXNN (R171): one draw per execution. -/
def execRnd (x : Reg) (nn : Byte) (s : State) : Result := .next (s.drawByte.2.setReg x (nn &&& s.drawByte.1))

/-- DRW, DXYN (R173, R174): the bound is checked first; VX and VY are read before VF is written; needs_render is set
when a row is touched. -/
def execDrw (x y : Reg) (n : BitVec 4) (s : State) : Result :=
  match s.loadBytes s.i.toNat n.toNat with
  | none => .next (s.faultIn (.drw x y n) .address (firstOutOfRange s.i.toNat))
  | some bytes =>
    .next (((s.setFb (drawSprite s.fb (spriteWidth s.params) (s.reg x).toNat (s.reg y).toNat bytes).1).setNeedsRender
      (s.needsRender || n != 0)).setReg 0xF
        (collisionFlag (drawSprite s.fb (spriteWidth s.params) (s.reg x).toNat (s.reg y).toNat bytes).2))

end Sys2Proof.Machine
end

