-- ==== Sys2Proof/Machine/FamiliesEtoF.lean ====
section
/-! DEFINITION. Families E and F (spec/44_families_E-F.md): key skips, timers, the key wait, index arithmetic, decimal
digits, bulk transfer. -/

namespace Sys2Proof.Machine

/-- The common form of SKP and SKNP: a key index above 0x0F is the fault ADDRESS with addr = zext_16(VX); else skip if
the key's state is `pressed` (R190, R191). -/
def skipOnKey (i : Instr) (x : Reg) (pressed : Bool) (s : State) : Result :=
  if (s.reg x).toNat > 0x0F then .next (s.faultIn i .address (zext16 (s.reg x)))
  else .next (s.skipIf (s.key ((s.reg x).setWidth 4) == pressed))

/-- SKP, EX9E (R190). -/
def execSkp (x : Reg) (s : State) : Result := skipOnKey (.skp x) x true s

/-- SKNP, EXA1 (R191). -/
def execSknp (x : Reg) (s : State) : Result := skipOnKey (.sknp x) x false s

/-- LD_Vx_DT, FX07 (R193). -/
def execLdVxDt (x : Reg) (s : State) : Result := .next (s.setReg x s.dt)

/-- LD_Vx_K, FX0A (R194): V[X] is written later, by the SetKey that completes the wait (R116). -/
def execLdVxK (x : Reg) (s : State) : Result := .next ((s.setWaitReg x).setRunState .awaitingKey)

/-- LD_DT_Vx, FX15 (R195). -/
def execLdDtVx (x : Reg) (s : State) : Result := .next (s.setDt (s.reg x))

/-- LD_ST_Vx, FX18 (R196). -/
def execLdStVx (x : Reg) (s : State) : Result := .next (s.setSt (s.reg x))

/-- ADD_I_Vx, FX1E (R197): no flag, no fault. -/
def execAddIVx (x : Reg) (s : State) : Result := .next (s.setI (indexSum s.i (s.reg x)))

/-- LD_F_Vx, FX29 (R198): no mask on VX. -/
def execLdFVx (x : Reg) (s : State) : Result := .next (s.setI (glyphAddress (s.reg x)))

/-- Stores bytes from I, or faults with ADDRESS before any write (R199, R200). -/
def storeAtI (i : Instr) (bytes : List Byte) (s : State) : Result :=
  match s.storeBytes s.i.toNat bytes with
  | none => .next (s.faultIn i .address (firstOutOfRange s.i.toNat))
  | some t => .next t

/-- LD_B_Vx, FX33 (R199). -/
def execLdBVx (x : Reg) (s : State) : Result := storeAtI (.ldBVx x) (decimalDigits (s.reg x)) s

/-- LD_mem_Vx, FX55 (R200): I is not modified. -/
def execLdMemVx (x : Reg) (s : State) : Result := storeAtI (.ldMemVx x) (s.regsUpTo x) s

/-- LD_Vx_mem, FX65 (R201): I is not modified. -/
def execLdVxMem (x : Reg) (s : State) : Result :=
  match s.loadBytes s.i.toNat (x.toNat + 1) with
  | none => .next (s.faultIn (.ldVxMem x) .address (firstOutOfRange s.i.toNat))
  | some bytes => .next (s.setV (writeRegs s.v 0 bytes))

end Sys2Proof.Machine
end

