-- ==== Sys2Proof/Machine/Step.lean ====
section
/-! DEFINITION. One Step (spec/40_cycle.md R100): the parts of Machine/Cycle.lean, then the instruction. -/

namespace Sys2Proof.Machine

/-- Step (R100). Its output is `stepOutput`. -/
def step (s : State) : Host.Outcome State Fault Refusal :=
  match beginStep s with
  | .done t => .next t
  | .execute i t => exec i t

/-- The state with a table word stored at PC, so that a Running Step fetches and runs it. It stands for the host's Load,
which puts a program's bytes there (R264; notes/assumptions/8.md). -/
def State.withFetchWord (s : State) (nbits w : Nat) : State := s.placeAtPc (tableWordBytes nbits w)

end Sys2Proof.Machine
end

