-- ==== Sys2Proof/WellFormed.lean ====
section
/-! DEFINITION. Which inputs are well formed. A word is legal when it matches a row of the opcode map, written here as
the spec writes it, by mask and match (spec/30_encoding.md R85), and apart from the decoder, which is written from the
pseudocode of R84. An image is loadable when it fits between 0x200 and the top of memory (spec/70 R264). A term of
`Instr` needs no check: each operand's type is its field's width (R81, R82), so every term is well formed and every
statement about instructions is about all of them. -/

namespace Sys2Proof

/-- One row of R85: its mnemonic, its mask and its match. -/
structure OpcodeRow where
  mnemonic : String
  mask     : Word
  bits     : Word
deriving DecidableEq, Repr

/-- "a word `w` is the instruction when `(w & mask) == match`" (R85). -/
def OpcodeRow.matchesWord (r : OpcodeRow) (w : Word) : Bool := w &&& r.mask == r.bits

/-- The rows of each instruction, by constructor (R85). -/
def Instr.row : Instr → OpcodeRow
  | .cls        => ⟨"CLS", 0xFFFF, 0x00E0⟩
  | .ret        => ⟨"RET", 0xFFFF, 0x00EE⟩
  | .jp _       => ⟨"JP", 0xF000, 0x1000⟩
  | .call _     => ⟨"CALL", 0xF000, 0x2000⟩
  | .seImm _ _  => ⟨"SE_imm", 0xF000, 0x3000⟩
  | .sneImm _ _ => ⟨"SNE_imm", 0xF000, 0x4000⟩
  | .seReg _ _  => ⟨"SE_reg", 0xF00F, 0x5000⟩
  | .ldImm _ _  => ⟨"LD_imm", 0xF000, 0x6000⟩
  | .addImm _ _ => ⟨"ADD_imm", 0xF000, 0x7000⟩
  | .ldReg _ _  => ⟨"LD_reg", 0xF00F, 0x8000⟩
  | .orReg _ _  => ⟨"OR", 0xF00F, 0x8001⟩
  | .andReg _ _ => ⟨"AND", 0xF00F, 0x8002⟩
  | .xorReg _ _ => ⟨"XOR", 0xF00F, 0x8003⟩
  | .addReg _ _ => ⟨"ADD_reg", 0xF00F, 0x8004⟩
  | .sub _ _    => ⟨"SUB", 0xF00F, 0x8005⟩
  | .shr _ _    => ⟨"SHR", 0xF00F, 0x8006⟩
  | .shl _ _    => ⟨"SHL", 0xF00F, 0x800E⟩
  | .sneReg _ _ => ⟨"SNE_reg", 0xF00F, 0x9000⟩
  | .ldI _      => ⟨"LD_I", 0xF000, 0xA000⟩
  | .rnd _ _    => ⟨"RND", 0xF000, 0xC000⟩
  | .drw _ _ _  => ⟨"DRW", 0xF000, 0xD000⟩
  | .skp _      => ⟨"SKP", 0xF0FF, 0xE09E⟩
  | .sknp _     => ⟨"SKNP", 0xF0FF, 0xE0A1⟩
  | .ldVxDt _   => ⟨"LD_Vx_DT", 0xF0FF, 0xF007⟩
  | .ldVxK _    => ⟨"LD_Vx_K", 0xF0FF, 0xF00A⟩
  | .ldDtVx _   => ⟨"LD_DT_Vx", 0xF0FF, 0xF015⟩
  | .ldStVx _   => ⟨"LD_ST_Vx", 0xF0FF, 0xF018⟩
  | .addIVx _   => ⟨"ADD_I_Vx", 0xF0FF, 0xF01E⟩
  | .ldFVx _    => ⟨"LD_F_Vx", 0xF0FF, 0xF029⟩
  | .ldBVx _    => ⟨"LD_B_Vx", 0xF0FF, 0xF033⟩
  | .ldMemVx _  => ⟨"LD_mem_Vx", 0xF0FF, 0xF055⟩
  | .ldVxMem _  => ⟨"LD_Vx_mem", 0xF0FF, 0xF065⟩

/-- One instruction of each kind, to list the rows of the opcode map once. -/
def oneOfEach : List Instr :=
  [.cls, .ret, .jp 0, .call 0, .seImm 0 0, .sneImm 0 0, .seReg 0 0, .ldImm 0 0, .addImm 0 0, .ldReg 0 0, .orReg 0 0,
   .andReg 0 0, .xorReg 0 0, .addReg 0 0, .sub 0 0, .shr 0 0, .shl 0 0, .sneReg 0 0] ++
  [.ldI 0, .rnd 0 0, .drw 0 0 0, .skp 0, .sknp 0, .ldVxDt 0, .ldVxK 0, .ldDtVx 0, .ldStVx 0, .addIVx 0, .ldFVx 0,
   .ldBVx 0, .ldMemVx 0, .ldVxMem 0]

/-- The opcode map of R85: its 32 rows. -/
def opcodeMap : List OpcodeRow := oneOfEach.map Instr.row

/-- A word is legal when a row of the opcode map matches it (R85, R86). -/
def legalWord (w : Word) : Bool := opcodeMap.any (fun r => r.matchesWord w)

/-- A program image is loadable when it has at most 3584 bytes (R264). -/
def loadableImage (image : List Byte) : Bool := decide (image.length ≤ Config.maxImage)

end Sys2Proof
end

