-- ==== Sys2Proof/Machine/Transactions.lean ====
section
/-! DEFINITION. The host's transactions (spec/00_scope.md R10, spec/60_exceptions.md R240, R241): Reset, Load, Step,
SetKey and the read accessors. Each is atomic, and the host chooses their order (spec/40_cycle.md R118). -/

namespace Sys2Proof.Machine

/-- The state an instance with these parameters starts in (R260): `State.reset` but for its parameters and for the
font's bytes at 0x000..0x04F (R33). -/
def State.construct (p : Params) : State :=
  (({ State.reset with params := p } : State)).setMem (Memory.writeBytes [] Config.fontBase p.font.toList)

/-- Reset (R260): a fresh instance with the same parameters (R7). The random source is outside the core (R39), so its
draws go on (notes/assumptions/4.md). -/
def resetCore (s : State) : State := (State.construct s.params).setDraws s.draws

/-- The answer of a Load (R37, R264). -/
inductive LoadResult where
  | success
  | failure
deriving DecidableEq, Repr

/-- Load(image) (R264); `none` as the image is MISSING. The answer none is "no move": a Load once `loaded` is true
(R241 (a)). -/
def loadImage (image : Option (List Byte)) (s : State) : Option (LoadResult × State) :=
  if s.loaded then none
  else
    match image with
    | none => some (.failure, s)
    | some b =>
      if loadableImage b then
        some (.success, (s.setMem (s.mem.writeBytes Config.programBase b)).setLoaded true)
      else some (.failure, s)

/-- SetKey(k, pressed) (R115): nothing in Faulted (R117); a press edge in AwaitingKey completes the wait (R116). -/
def setKey (k : Reg) (pressed : Bool) (s : State) : State :=
  match s.runState with
  | .faulted => s
  | .running => s.setKey k pressed
  | .awaitingKey =>
    if s.key k = false ∧ pressed = true then
      ((s.setKey k pressed).setReg s.waitReg (zext8 k)).setRunState .running
    else s.setKey k pressed

/-- ReadFramebuffer (R240): the pixels as a flat copy, indexed y * 64 + x (D24). -/
def readFramebuffer (s : State) : List Bool :=
  (List.finRange 32).flatMap (fun y => (List.finRange 64).map (fun x => s.fb.pixel (x, y)))

/-- ReadNeedsRender (R240). -/
def readNeedsRender (s : State) : Bool := s.needsRender

/-- ReadStatus (R240): run_state and the fault record. -/
def readStatus (s : State) : RunState × FaultRecord := (s.runState, s.fault)

/-- A host transaction (R10, R240). -/
inductive Transaction where
  | reset
  | load (image : Option (List Byte))
  | step
  | setKey (k : Reg) (pressed : Bool)
  | readFramebuffer
  | readNeedsRender
  | readStatus
deriving DecidableEq, Repr

/-- What the core returns to the host (R240). -/
inductive Response where
  | nothing
  | load (r : LoadResult)
  | step (o : StepOutput)
  | framebuffer (pixels : List Bool)
  | needsRender (b : Bool)
  | status (r : RunState) (f : FaultRecord)
deriving DecidableEq, Repr

/-- One transaction: the answer and the state after it; none where it has no move (R241). -/
def transact (t : Transaction) (s : State) : Option (Response × State) :=
  match t with
  | .reset => some (.nothing, resetCore s)
  | .load image =>
    match loadImage image s with
    | none => none
    | some (r, s') => some (.load r, s')
  | .step =>
    match step s with
    | .next s' => some (.step (stepOutput s), s')
    | .fault _ => none
    | .refused _ => none
  | .setKey k pressed => some (.nothing, setKey k pressed s)
  | .readFramebuffer => some (.framebuffer (readFramebuffer s), s)
  | .readNeedsRender => some (.needsRender (readNeedsRender s), s)
  | .readStatus => some (.status (readStatus s).1 (readStatus s).2, s)

/-- A run: the finite sequence of transactions the host issues, with the trace of the core's answers (R37, R242); none
when one of them has no move. -/
def runTransactions : List Transaction → State → Option (List Response × State)
  | [], s => some ([], s)
  | t :: ts, s =>
    match transact t s with
    | none => none
    | some (r, s') =>
      match runTransactions ts s' with
      | none => none
      | some (rs, s'') => some (r :: rs, s'')

end Sys2Proof.Machine
end

