-- ==== Sys2Proof/Safety.lean ====
section
/-! DEFINITION. What counts as a safe state, and the words the statements use: the invariants of a run
(spec/10_state.md R40), what a step executes, the frames, and the fault an instruction takes. -/

namespace Sys2Proof.Machine

/-- The core has not faulted (R242). -/
def State.NoFault (s : State) : Prop := s.runState ≠ .faulted

/-- The invariants of a run. SP <= 16, one bit per pixel and the three run states hold by the types of the fields (R40).
What is left: the memory is in canonical form; the fault record is the clear one exactly outside Faulted (R36, R40); and
outside Running a Step has been taken, so the load window is closed (R101). -/
def State.Inv (s : State) : Prop :=
  s.mem.wf ∧ (s.fault.cause = .none ↔ s.NoFault) ∧ (s.NoFault → s.fault = FaultRecord.clear) ∧
    (s.runState ≠ .running → s.loaded = true)

/-- `w` is the word of `i`, read and written (R84, R85). -/
def Encodes (w : Word) (i : Instr) : Prop := decode w = .ok i ∧ encode i = w

/-- The instruction a Running Step in this state executes: none when the word at PC cannot be fetched or is illegal
(R104, R105). The parts of the Step before the fetch write neither PC nor memory. -/
def State.nextInstr (s : State) : Option Instr :=
  match s.fetchWord with
  | none => none
  | some w =>
    match decode w with
    | .ok i => some i
    | .error _ => none

/-- `t` is `s` with at most the V registers written. -/
def OnlyRegsChange (s t : State) : Prop := t = { s with v := t.v } ∧ ∀ a, t.mem.read a = s.mem.read a

/-- `t` is `s` with at most PC written. -/
def OnlyPcChanges (s t : State) : Prop := t = { s with pc := t.pc } ∧ ∀ a, t.mem.read a = s.mem.read a

/-- `t` is `s` after the fault of the instruction at pc0 whose word is `w` (R221): the record holds the cause, pc0, the
word and the address; run_state is Faulted; and nothing else is written, so every byte reads as before. -/
def FaultsWith (s t : State) (cause : Cause) (pc0 w addr : Word) : Prop :=
  t = { s with runState := .faulted, fault := { cause := cause, pc := pc0, word := w, addr := addr } }

/-- The V registers an instruction names as a destination, VF as a flag among them (R21, R22). -/
def WritesReg (i : Instr) (r : Reg) : Prop :=
  match i with
  | .ldImm x _ | .addImm x _ | .ldReg x _ | .orReg x _ | .andReg x _ | .xorReg x _ | .rnd x _ | .ldVxDt x => r = x
  | .addReg x _ | .sub x _ | .shr x _ | .shl x _ => r = x ∨ r = 0xF
  | .drw _ _ _ => r = 0xF
  | .ldVxMem x => r.toNat ≤ x.toNat
  | .cls | .ret | .jp _ | .call _ | .seImm _ _ | .sneImm _ _ | .seReg _ _ | .sneReg _ _ | .ldI _ | .skp _ | .sknp _
  | .ldVxK _ | .ldDtVx _ | .ldStVx _ | .addIVx _ | .ldFVx _ | .ldBVx _ | .ldMemVx _ => False

/-- The columns of a sprite row that are drawn, from P_SPRITE_ROW_BITS (R6, R174). -/
def drawnColumns (p : Params) : Nat := if p.spriteRowBits = .eight then 8 else 4

/-- DXYN, executed in `s`, covers this pixel: a set bit of a sprite row, most significant bit first, lands on it, the
column modulo 64 and the row modulo 32 (R173). -/
def SpriteCovers (s : State) (x y : Reg) (n : BitVec 4) (p : Point) : Prop :=
  ∃ r c : Nat, r < n.toNat ∧ c < drawnColumns s.params ∧ (s.mem.read (s.i.toNat + r)).getLsbD (7 - c) = true ∧
    p.1.val = ((s.reg x).toNat + c) % 64 ∧ p.2.val = ((s.reg y).toNat + r) % 32

/-- The operand that the shifts read, from P_SHIFT_SRC (R6, R159, R160). -/
def shiftedByte (s : State) (x y : Reg) : Byte := if s.params.shiftSrc = .vx then s.reg x else s.reg y

end Sys2Proof.Machine
end

