-- ==== Sys2Proof/Certificates/Slice0/Obligations.lean ====
section
/-! DEFINITION. The statements for the provers. Each docstring names the rules of spec/ it formalises; where a clause
rests on a decision that the spec marks as its own (D<n> of spec/92_eei_decisions.md) or on the model's choice (a log
entry), it says so. -/

open Sys2Proof Sys2Proof.Machine

/-! ## Encoding -/

/-- Decoding the word of an instruction gives it back, with every operand at every value, and from memory's bytes with
whatever follows them left over (spec/30_encoding.md sections 1 and 2; the nibbles of family 8 are the spec's D6). -/
def Obligations.DecodeOfEncodeIsTheInstruction : Prop :=
  ∀ i : Instr, decode (encode i) = .ok i ∧ ∀ rest, decodeBytes (bytesOfWord (encode i) ++ rest) = .ok (i, rest)

/-- No bit of a legal word is lost: the word of a decoded instruction is the word it was decoded from, so no two words
are one instruction (spec/30_encoding.md section 1). -/
def Obligations.EncodeOfDecodeIsTheWord : Prop :=
  ∀ (w : Word) (i : Instr), decode w = .ok i → encode i = w

/-- Decode, written from the pseudocode of R84, agrees with the masks and matches of R85: a word decodes to an instruction
exactly when that instruction's row matches it and no other row does, and is refused exactly when no row matches it
(spec/30_encoding.md section 2; strictness is the spec's D16, and the nibbles of rows 11 to 16 are its D6, PRESUMED, log
6). -/
def Obligations.DecodeAgreesWithTheOpcodeMap : Prop :=
  ∀ w : Word,
    (∃ i, decode w = .ok i ∧ legalWord w = true ∧ ∀ r ∈ opcodeMap, (r.matchesWord w = true ↔ r = i.row)) ∨
    (∃ e, decode w = .error e ∧ legalWord w = false ∧ ∀ r ∈ opcodeMap, r.matchesWord w = false)

/-- The illegal words, family by family, are those of the table of R86 and no others (spec/30_encoding.md section 3;
strictness is the spec's D16, and the nibbles of family 8 its D6, PRESUMED, log 6). -/
def Obligations.IllegalWordsAreThoseOfTheTable : Prop :=
  ∀ w : Word,
    (decode w = .error .family0 ↔ famOf w = 0x0 ∧ w ≠ 0x00E0 ∧ w ≠ 0x00EE) ∧
    (decode w = .error .family5 ↔ famOf w = 0x5 ∧ nOf w ≠ 0) ∧
    (decode w = .error .family8 ↔ famOf w = 0x8 ∧
      nOf w ∈ [0x7#4, 0x8#4, 0x9#4, 0xA#4, 0xB#4, 0xC#4, 0xD#4, 0xF#4]) ∧
    (decode w = .error .family9 ↔ famOf w = 0x9 ∧ nOf w ≠ 0) ∧
    (decode w = .error .familyB ↔ famOf w = 0xB) ∧
    (decode w = .error .familyE ↔ famOf w = 0xE ∧ nnOf w ∉ [0x9E#8, 0xA1#8]) ∧
    (decode w = .error .familyF ↔ famOf w = 0xF ∧
      nnOf w ∉ [0x07#8, 0x0A#8, 0x15#8, 0x18#8, 0x1E#8, 0x29#8, 0x33#8, 0x55#8, 0x65#8]) ∧
    decode w ≠ .error .tooShort

/-- Words written out from the patterns, one of each family (spec/30_encoding.md section 2, the map; that 8124 is ADD_reg
rests on the nibble 4 of family 8, the spec's D6, PRESUMED, log 6). -/
def Obligations.SampleWordsDecode : Prop :=
  decode 0x00E0 = .ok .cls ∧ decode 0x1234 = .ok (.jp 0x234) ∧ decode 0x2300 = .ok (.call 0x300) ∧
  decode 0x3342 = .ok (.seImm 3 0x42) ∧ decode 0x4300 = .ok (.sneImm 3 0x00) ∧ decode 0x5120 = .ok (.seReg 1 2) ∧
  decode 0x6A02 = .ok (.ldImm 0xA 0x02) ∧ decode 0x7301 = .ok (.addImm 3 0x01) ∧ decode 0x8124 = .ok (.addReg 1 2) ∧
  decode 0x9120 = .ok (.sneReg 1 2) ∧ decode 0xA300 = .ok (.ldI 0x300) ∧ decode 0xC30F = .ok (.rnd 3 0x0F) ∧
  decode 0xDAB1 = .ok (.drw 0xA 0xB 1) ∧ decode 0xE59E = .ok (.skp 5) ∧ decode 0xF533 = .ok (.ldBVx 5)

/-! ## The Step -/

/-- A Running Step that reads the two bytes at PC, big-endian, as instruction i executes i, with `loaded` set, the
dirty flag cleared, both timers decayed and PC advanced by 2 (spec/40_cycle.md section 1). -/
def Obligations.StepRunsTheDecodedInstruction : Prop :=
  ∀ (s : State) (i : Instr), s.runState = .running → s.pc.toNat + 1 ≤ 0xFFF →
    decodeBytes [s.mem.read s.pc.toNat, s.mem.read (s.pc.toNat + 1)] = .ok (i, []) →
    step s = exec i { s with
      loaded := true
      needsRender := false
      dt := BitVec.ofNat 8 (s.dt.toNat - 1)
      st := BitVec.ofNat 8 (s.st.toNat - 1)
      pc := BitVec.ofNat 16 (s.pc.toNat + 2) }

/-- A Running Step whose word lies partly beyond 0xFFF faults with ADDRESS at the lowest address out of range, with word
0x0000 and PC left where it was; the flag clear and the decay stay (spec/40_cycle.md section 1, the spec's D4, D30). -/
def Obligations.FetchBeyondMemoryFaults : Prop :=
  ∀ s : State, s.runState = .running → 0xFFF < s.pc.toNat + 1 →
    step s = .next { s with
      loaded := true
      needsRender := false
      dt := BitVec.ofNat 8 (s.dt.toNat - 1)
      st := BitVec.ofNat 8 (s.st.toNat - 1)
      runState := .faulted
      fault := { cause := .address, pc := s.pc, word := 0
                 addr := if 0xFFF < s.pc.toNat then s.pc else s.pc + 1 } }

/-- A Running Step that fetches an illegal word faults with DECODE, pc0 and the word, after the flag clear, the decay and
the PC advance (spec/40_cycle.md section 1, the spec's D4). -/
def Obligations.IllegalWordFaultsAfterTheAdvance : Prop :=
  ∀ (s : State) (w : Word), s.runState = .running → s.pc.toNat + 1 ≤ 0xFFF →
    w = s.mem.read s.pc.toNat ++ s.mem.read (s.pc.toNat + 1) → legalWord w = false →
    step s = .next { s with
      loaded := true
      needsRender := false
      dt := BitVec.ofNat 8 (s.dt.toNat - 1)
      st := BitVec.ofNat 8 (s.st.toNat - 1)
      pc := s.pc + 2
      runState := .faulted
      fault := { cause := .decode, pc := s.pc, word := w, addr := 0 } }

/-- Every word of family B, and every word 0xEXnn with nn neither 9E nor A1, is a decode error; a Step that fetches one
raises Fault(DECODE) (spec/43_families_A-D.md Family B, spec/44_families_E-F.md Family E, spec/30_encoding.md section 3).
That its record holds pc0 and the word is spec/40_cycle.md section 1 and spec/60_exceptions.md section 1, the spec's D4
and D30 (log 12). -/
def Obligations.UnlistedBAndEWordsFaultDecode : Prop :=
  ∀ (s : State) (w : Word), s.runState = .running → s.pc.toNat + 1 ≤ 0xFFF →
    w = s.mem.read s.pc.toNat ++ s.mem.read (s.pc.toNat + 1) →
    (famOf w = 0xB ∨ (famOf w = 0xE ∧ nnOf w ≠ 0x9E ∧ nnOf w ≠ 0xA1)) →
    (∀ i, decode w ≠ .ok i) ∧
      ∃ t, step s = .next t ∧ t.runState = .faulted ∧ t.fault.cause = .decode ∧ t.fault.pc = s.pc ∧ t.fault.word = w

/-- Outside Running a Step changes nothing: `loaded` is the only field it touches, and that is set already in every state
of a run; it reports no sound event (spec/40_cycle.md section 1; Faulted is the spec's D2). -/
def Obligations.StepOutsideRunningChangesNothing : Prop :=
  ∀ s : State, s.runState ≠ .running →
    step s = .next { s with loaded := true } ∧ (s.Inv → step s = .next s) ∧ (stepOutput s).soundStopped = false

/-- No behaviour of the core is a refusal: every instruction in every state, and every Step, answers a next state
(spec/93_implementation_defined.md Part 1; spec/30_encoding.md section 2). -/
def Obligations.EveryStepAnswersANextState : Prop :=
  (∀ (i : Instr) (s : State), ∃ t, exec i s = .next t) ∧ ∀ s : State, ∃ t, step s = .next t

/-- R103: in a Running Step each timer goes down by one, and stays at 0; an instruction reads DT after this Step's decay,
and a value written by FX15 or FX18 is not decayed in its own Step; outside Running the timers stand. -/
def Obligations.TimersDecayOncePerRunningStep : Prop :=
  ∀ s : State, ∃ t, step s = .next t ∧
    (s.runState ≠ .running → t.dt = s.dt ∧ t.st = s.st) ∧
    (s.runState = .running →
      ((∀ x, s.nextInstr ≠ some (.ldDtVx x)) → t.dt.toNat = s.dt.toNat - 1) ∧
      ((∀ x, s.nextInstr ≠ some (.ldStVx x)) → t.st.toNat = s.st.toNat - 1) ∧
      (∀ x, s.nextInstr = some (.ldDtVx x) → t.dt = s.reg x) ∧
      (∀ x, s.nextInstr = some (.ldStVx x) → t.st = s.reg x) ∧
      (∀ x, s.nextInstr = some (.ldVxDt x) → (t.reg x).toNat = s.dt.toNat - 1))

/-- The sound timer, left alone over n Running Steps, goes down to 0 and no further, and the Steps report SoundStopped
once if it reached 0 by decay, and never otherwise (spec/44_families_E-F.md, laws of families E and F; the event as an
output is the spec's D25). -/
def Obligations.SoundTimerStopsExactlyOnce : Prop :=
  ∀ (n : Nat) (s : State),
    (∀ k < n, ∀ rs t, runTransactions (List.replicate k .step) s = some (rs, t) →
      t.runState = .running ∧ ∀ x, t.nextInstr ≠ some (.ldStVx x)) →
    ∃ rs t, runTransactions (List.replicate n .step) s = some (rs, t) ∧ t.st.toNat = s.st.toNat - n ∧
      rs.count (.step { soundStopped := true }) = if 0 < s.st.toNat ∧ s.st.toNat ≤ n then 1 else 0

/-- At the end of a Running Step needs_render is true exactly when that Step's instruction set it: a DXYN of at least one
row that did not fault, or, under P_CLS_SETS_DIRTY, a 00E0 (spec/40_cycle.md section 1, spec/10_state.md section 6; the
00E0 part is the spec's D21). -/
def Obligations.DirtyFlagReportsThisStepOnly : Prop :=
  ∀ s : State, s.runState = .running → ∃ t, step s = .next t ∧
    (t.needsRender = true ↔
      (∃ x y n, s.nextInstr = some (.drw x y n) ∧ n ≠ 0 ∧ s.i.toNat + n.toNat - 1 ≤ 0xFFF) ∨
      (s.nextInstr = some .cls ∧ s.params.clsSetsDirty = true))

/-! ## The whole machine -/

/-- The reset state, with the default parameters and with any others, meets the invariants (spec/10_state.md sections
8 and 9; the canonical memory among them is the model's choice, log 5, and the closed load window outside Running is
DEDUCED, log 13). -/
def Obligations.ResetMeetsTheInvariants : Prop := State.reset.Inv ∧ ∀ p : Params, (State.construct p).Inv

/-- Every Step keeps the invariants: the canonical memory, a clear fault record exactly outside Faulted, a closed load
window outside Running (spec/10_state.md sections 8 and 9; the memory's form is the model's choice, log 5, and the load
window outside Running is DEDUCED, log 13). -/
def Obligations.EveryStepKeepsTheInvariants : Prop :=
  ∀ s t : State, s.Inv → step s = .next t → t.Inv

/-- Every transaction of the host keeps the invariants: the canonical memory, a clear fault record exactly outside
Faulted, a closed load window outside Running (spec/10_state.md sections 8 and 9; the memory's form is the model's
choice, log 5, and the load window outside Running is DEDUCED, log 13). -/
def Obligations.EveryTransactionKeepsTheInvariants : Prop :=
  ∀ (tr : Transaction) (s t : State) (r : Response), s.Inv → transact tr s = some (r, t) → t.Inv

/-- No transaction changes the parameters of the instance (spec/00_scope.md section 3; that they stand in State is the
model's choice, log 3). -/
def Obligations.ParametersNeverChange : Prop :=
  ∀ (tr : Transaction) (s t : State) (r : Response), transact tr s = some (r, t) → t.params = s.params

/-- An instruction that enters Faulted has written nothing but the fault record; one that does not has left the record
alone (spec/40_cycle.md section 1, spec/60_exceptions.md section 1; the spec's D4 and D30; that pc0 and the word are PC - 2
and the instruction's own encoding is DEDUCED, log 7). -/
def Obligations.FaultingInstructionWritesNothing : Prop :=
  ∀ (i : Instr) (s t : State) (pc0 : Word), s.pc = pc0 + 2 → s.NoFault → exec i s = .next t →
    (t.runState = .faulted ∧ ∃ c a, c ≠ .none ∧ c ≠ .decode ∧ FaultsWith s t c pc0 (encode i) a) ∨
    (t.NoFault ∧ t.fault = s.fault)

/-- Faulted is terminal: whatever transactions the host issues, as long as none is a Reset, the state stays what it was
(spec/60_exceptions.md section 1, the spec's D2). -/
def Obligations.FaultedIsTerminal : Prop :=
  ∀ (ts : List Transaction) (s t : State) (rs : List Response), s.Inv → s.runState = .faulted → .reset ∉ ts →
    runTransactions ts s = some (rs, t) → t = s

/-- Only a SetKey that reports a press, or a Reset, leaves AwaitingKey (spec/10_state.md section 8, spec/40_cycle.md
section 2). -/
def Obligations.OnlyAPressEndsTheWait : Prop :=
  ∀ (tr : Transaction) (s t : State) (r : Response), s.runState = .awaitingKey → transact tr s = some (r, t) →
    t.runState ≠ .awaitingKey → tr = .reset ∨ ∃ k, tr = .setKey k true ∧ s.key k = false

/-- Which instruction writes which state outside the V registers: each field is written only by the instructions that
the table of spec/10_state.md section 9 lists for it, the framebuffer only by those of its section 6, memory only by those
of spec/20_memory.md sections 2 and 3 (the fields `params` and `draws` are the model's own, logs 3 and 4). -/
def Obligations.StateIsWrittenOnlyAsListed : Prop :=
  ∀ (i : Instr) (s t : State), exec i s = .next t →
    (t.i ≠ s.i → (∃ a, i = .ldI a) ∨ (∃ x, i = .addIVx x) ∨ ∃ x, i = .ldFVx x) ∧
    (t.pc ≠ s.pc → i = .ret ∨ (∃ a, i = .jp a) ∨ (∃ a, i = .call a) ∨ (∃ x n, i = .seImm x n) ∨
      (∃ x n, i = .sneImm x n) ∨ (∃ x y, i = .seReg x y) ∨ (∃ x y, i = .sneReg x y) ∨ (∃ x, i = .skp x) ∨
      ∃ x, i = .sknp x) ∧
    (t.sp ≠ s.sp → i = .ret ∨ ∃ a, i = .call a) ∧
    (t.stack ≠ s.stack → ∃ a, i = .call a) ∧
    (t.dt ≠ s.dt → ∃ x, i = .ldDtVx x) ∧
    (t.st ≠ s.st → ∃ x, i = .ldStVx x) ∧
    t.keys = s.keys ∧
    (t.fb ≠ s.fb → i = .cls ∨ ∃ x y n, i = .drw x y n) ∧
    (t.needsRender ≠ s.needsRender → i = .cls ∨ ∃ x y n, i = .drw x y n) ∧
    (t.waitReg ≠ s.waitReg → ∃ x, i = .ldVxK x) ∧
    (t.runState ≠ s.runState → t.runState = .faulted ∨ ∃ x, i = .ldVxK x) ∧
    (t.fault ≠ s.fault → t.runState = .faulted) ∧
    (t.mem ≠ s.mem → (∃ x, i = .ldBVx x) ∨ ∃ x, i = .ldMemVx x) ∧
    t.loaded = s.loaded ∧ t.params = s.params ∧ (t.draws ≠ s.draws → ∃ x n, i = .rnd x n)

/-- An instruction writes no V register that it does not name: VF is written as a flag by 8XY4, 8XY5, 8XY6, 8XYE and DXYN
alone (spec/10_state.md section 2; that 8XY0 to 8XY3 leave VF alone is the spec's D10, that FX1E does its D14; log 12). -/
def Obligations.RegistersAreWrittenOnlyAsNamed : Prop :=
  ∀ (i : Instr) (s t : State) (r : Reg), exec i s = .next t → ¬ WritesReg i r → t.reg r = s.reg r

/-- A store is seen by the very next fetch: after an FX55 that stores V0 and V1 over the two bytes at PC, the next Step
runs the instruction they encode (spec/20_memory.md section 4, spec/70_reset_and_hazards.md section 4). -/
def Obligations.StoredCodeIsWhatTheNextStepRuns : Prop :=
  ∀ (x : Reg) (i : Instr) (s : State), s.runState = .running → x ≠ 0 → s.i = s.pc → s.i.toNat + x.toNat ≤ 0xFFF →
    encode i = s.reg 0 ++ s.reg 1 →
    ∃ t, exec (.ldMemVx x) s = .next t ∧ t.pc = s.pc ∧ t.nextInstr = some i ∧
      step t = exec i t.beforeFetch.advancePc

/-! ## Families 0 to 5 -/

/-- 00E0: every pixel is unlit, needs_render is set only under P_CLS_SETS_DIRTY, and nothing else changes
(spec/41_families_0-5.md Family 0; the needs_render part is the spec's D21). -/
def Obligations.ClsClearsEveryPixel : Prop :=
  Encodes 0x00E0 .cls ∧
  ∀ s : State, ∃ t, exec .cls s = .next t ∧ (∀ p, t.fb.pixel p = false) ∧
    t.needsRender = (s.needsRender || s.params.clsSetsDirty) ∧
    t = { s with fb := t.fb, needsRender := t.needsRender } ∧ ∀ a, t.mem.read a = s.mem.read a

/-- R132: RET on an empty stack faults with STACK_UNDERFLOW; else SP goes down by one and PC takes stack[SP], and
nothing else changes, the popped entry included. -/
def Obligations.RetPopsTheReturnAddress : Prop :=
  Encodes 0x00EE .ret ∧
  (∀ (s : State) (n : Nat) (hn : n < 16), s.sp.val = n + 1 →
    ∃ t, exec .ret s = .next t ∧ t.sp.val = n ∧ t.pc = s.stack[n] ∧
      t = { s with sp := t.sp, pc := t.pc } ∧ ∀ a, t.mem.read a = s.mem.read a) ∧
  (∀ (s : State) (pc0 : Word), s.pc = pc0 + 2 → s.sp = 0 →
    ∃ t, exec .ret s = .next t ∧ FaultsWith s t .stackUnderflow pc0 0x00EE 0)

/-- R133: JP sets PC to the zero-extended NNN, whatever NNN is, and nothing else changes. -/
def Obligations.JpSetsThePc : Prop :=
  ∀ (nnn : Addr12) (s : State), Encodes (0x1#4 ++ nnn) (.jp nnn) ∧
    ∃ t, exec (.jp nnn) s = .next t ∧ t.pc.toNat = nnn.toNat ∧ OnlyPcChanges s t

/-- R134: CALL on a full stack faults with STACK_OVERFLOW; else stack[SP] takes the advanced PC, SP goes up by one, PC
takes NNN, and nothing else changes. -/
def Obligations.CallPushesTheAdvancedPc : Prop :=
  ∀ (nnn : Addr12) (s : State), Encodes (0x2#4 ++ nnn) (.call nnn) ∧
    (s.sp.val < 16 → ∃ t, exec (.call nnn) s = .next t ∧
      (∀ (k : Nat) (hk : k < 16), t.stack[k] = if k = s.sp.val then s.pc else s.stack[k]) ∧
      t.sp.val = s.sp.val + 1 ∧ t.pc.toNat = nnn.toNat ∧
      t = { s with stack := t.stack, sp := t.sp, pc := t.pc } ∧ ∀ a, t.mem.read a = s.mem.read a) ∧
    (s.sp.val = 16 → ∀ pc0, s.pc = pc0 + 2 →
      ∃ t, exec (.call nnn) s = .next t ∧ FaultsWith s t .stackOverflow pc0 (0x2#4 ++ nnn) 0)

/-- The call and return law: after a CALL at pc0, a RET in any state that has SP and the entries below it as the call left
them goes back to pc0 + 2 with SP as it was before the call (spec/41_families_0-5.md Family 2). -/
def Obligations.CallThenReturnComesBack : Prop :=
  ∀ (nnn : Addr12) (s : State) (pc0 : Word), s.pc = pc0 + 2 → s.sp.val < 16 →
    ∃ t, exec (.call nnn) s = .next t ∧
      ∀ u : State, u.sp = t.sp → (∀ (k : Nat) (hk : k < 16), k < t.sp.val → u.stack[k] = t.stack[k]) →
        ∃ u', exec .ret u = .next u' ∧ u'.pc = pc0 + 2 ∧ u'.sp = s.sp

/-- R136 and R137: SE_imm skips when VX equals NN, SNE_imm when it differs; PC is then 4 past the instruction, else 2, and
nothing else changes. -/
def Obligations.SkipsOnAnImmediate : Prop :=
  ∀ (x : Reg) (nn : Byte) (s : State) (pc0 : Word), s.pc = pc0 + 2 →
    (Encodes (0x3#4 ++ x ++ nn) (.seImm x nn) ∧ ∃ t, exec (.seImm x nn) s = .next t ∧
      t.pc = (if s.reg x = nn then pc0 + 4 else pc0 + 2) ∧ OnlyPcChanges s t) ∧
    (Encodes (0x4#4 ++ x ++ nn) (.sneImm x nn) ∧ ∃ t, exec (.sneImm x nn) s = .next t ∧
      t.pc = (if s.reg x = nn then pc0 + 2 else pc0 + 4) ∧ OnlyPcChanges s t)

/-- SE_reg skips when VX equals VY, SNE_reg when they differ; PC is then 4 past the instruction, else 2, and nothing else
changes (spec/41_families_0-5.md Family 5, spec/42_families_6-9.md Family 9; strictness of the low nibble is the spec's
D16). -/
def Obligations.SkipsOnARegister : Prop :=
  ∀ (x y : Reg) (s : State) (pc0 : Word), s.pc = pc0 + 2 →
    (Encodes (0x5#4 ++ x ++ y ++ 0x0#4) (.seReg x y) ∧ ∃ t, exec (.seReg x y) s = .next t ∧
      t.pc = (if s.reg x = s.reg y then pc0 + 4 else pc0 + 2) ∧ OnlyPcChanges s t) ∧
    (Encodes (0x9#4 ++ x ++ y ++ 0x0#4) (.sneReg x y) ∧ ∃ t, exec (.sneReg x y) s = .next t ∧
      t.pc = (if s.reg x = s.reg y then pc0 + 2 else pc0 + 4) ∧ OnlyPcChanges s t)

/-! ## Families 6 to 9 -/

/-- R150: LD_imm loads NN into VX, VF like any other register, and nothing else changes. -/
def Obligations.LdImmLoadsTheImmediate : Prop :=
  ∀ (x : Reg) (nn : Byte) (s : State), Encodes (0x6#4 ++ x ++ nn) (.ldImm x nn) ∧
    ∃ t, exec (.ldImm x nn) s = .next t ∧ OnlyRegsChange s t ∧ ∀ r, t.reg r = if r = x then nn else s.reg r

/-- R151: ADD_imm adds NN to VX modulo 256; VF is not written as a flag, also when the sum wraps; nothing else changes. -/
def Obligations.AddImmAddsWithoutAFlag : Prop :=
  ∀ (x : Reg) (nn : Byte) (s : State), Encodes (0x7#4 ++ x ++ nn) (.addImm x nn) ∧
    ∃ t, exec (.addImm x nn) s = .next t ∧ OnlyRegsChange s t ∧
      (t.reg x).toNat = ((s.reg x).toNat + nn.toNat) % 256 ∧ ∀ r, r ≠ x → t.reg r = s.reg r

/-- The immediate load and add law: 6XNN and then 7XNN leave VX = (NN + NN) mod 256, run as two Steps from a state whose
memory holds the two words at PC (spec/42_families_6-9.md, law of families 6 and 7). -/
def Obligations.LoadThenAddDoublesTheImmediate : Prop :=
  ∀ (x : Reg) (nn : Byte) (s : State), s.runState = .running → s.pc.toNat + 3 ≤ 0xFFF →
    s.mem.read s.pc.toNat ++ s.mem.read (s.pc.toNat + 1) = encode (.ldImm x nn) →
    s.mem.read (s.pc.toNat + 2) ++ s.mem.read (s.pc.toNat + 3) = encode (.addImm x nn) →
    ∃ t u, step s = .next t ∧ step t = .next u ∧ (u.reg x).toNat = (nn.toNat + nn.toNat) % 256 ∧
      (∀ r, r ≠ x → u.reg r = s.reg r) ∧ u.pc = s.pc + 4

/-- LD_reg copies VY to VX, with no flag, and nothing else changes (spec/42_families_6-9.md Family 8; VF unchanged is the
spec's D10, log 12). -/
def Obligations.LdRegCopiesARegister : Prop :=
  ∀ (x y : Reg) (s : State), Encodes (0x8#4 ++ x ++ y ++ 0x0#4) (.ldReg x y) ∧
    ∃ t, exec (.ldReg x y) s = .next t ∧ OnlyRegsChange s t ∧ ∀ r, t.reg r = if r = x then s.reg y else s.reg r

/-- OR, AND and XOR combine VX and VY bit by bit into VX; VF is not written as a flag, and nothing else changes
(spec/42_families_6-9.md Family 8; the nibbles are the spec's D6, VF unchanged its D10). -/
def Obligations.LogicalOperationsWriteNoFlag : Prop :=
  ∀ (x y : Reg) (s : State),
    (Encodes (0x8#4 ++ x ++ y ++ 0x1#4) (.orReg x y) ∧ ∃ t, exec (.orReg x y) s = .next t ∧ OnlyRegsChange s t ∧
      (∀ k, (t.reg x).getLsbD k = ((s.reg x).getLsbD k || (s.reg y).getLsbD k)) ∧ ∀ r, r ≠ x → t.reg r = s.reg r) ∧
    (Encodes (0x8#4 ++ x ++ y ++ 0x2#4) (.andReg x y) ∧ ∃ t, exec (.andReg x y) s = .next t ∧ OnlyRegsChange s t ∧
      (∀ k, (t.reg x).getLsbD k = ((s.reg x).getLsbD k && (s.reg y).getLsbD k)) ∧ ∀ r, r ≠ x → t.reg r = s.reg r) ∧
    (Encodes (0x8#4 ++ x ++ y ++ 0x3#4) (.xorReg x y) ∧ ∃ t, exec (.xorReg x y) s = .next t ∧ OnlyRegsChange s t ∧
      (∀ k, (t.reg x).getLsbD k = ((s.reg x).getLsbD k != (s.reg y).getLsbD k)) ∧ ∀ r, r ≠ x → t.reg r = s.reg r)

/-- ADD_reg puts the sum modulo 256 into VX and the carry into VF, the flag last; nothing else changes
(spec/42_families_6-9.md Family 8; the nibble is the spec's D6, the order at X = F its D9). -/
def Obligations.AddRegPutsTheCarryIntoVF : Prop :=
  ∀ (x y : Reg) (s : State), Encodes (0x8#4 ++ x ++ y ++ 0x4#4) (.addReg x y) ∧
    ∃ t, exec (.addReg x y) s = .next t ∧ OnlyRegsChange s t ∧
      (x ≠ 0xF → (t.reg x).toNat = ((s.reg x).toNat + (s.reg y).toNat) % 256) ∧
      t.reg 0xF = (if (s.reg x).toNat + (s.reg y).toNat > 255 then 0x01 else 0x00) ∧
      ∀ r, r ≠ x → r ≠ 0xF → t.reg r = s.reg r

/-- SUB puts VX - VY modulo 256 into VX and the flag of P_SUB_FLAG into VF, the flag last; nothing else changes
(spec/42_families_6-9.md Family 8; the polarity is the spec's D7, the nibble D6, the order at X = F D9). -/
def Obligations.SubPutsTheBorrowFlagIntoVF : Prop :=
  ∀ (x y : Reg) (s : State), Encodes (0x8#4 ++ x ++ y ++ 0x5#4) (.sub x y) ∧
    ∃ t, exec (.sub x y) s = .next t ∧ OnlyRegsChange s t ∧
      (x ≠ 0xF → (t.reg x).toNat = ((s.reg x).toNat + 256 - (s.reg y).toNat) % 256) ∧
      (s.params.subFlag = .noBorrowGe → t.reg 0xF = if (s.reg y).toNat ≤ (s.reg x).toNat then 0x01 else 0x00) ∧
      (s.params.subFlag = .noBorrowGt → t.reg 0xF = if (s.reg y).toNat < (s.reg x).toNat then 0x01 else 0x00) ∧
      (s.params.subFlag = .borrow → t.reg 0xF = if (s.reg x).toNat < (s.reg y).toNat then 0x01 else 0x00) ∧
      ∀ r, r ≠ x → r ≠ 0xF → t.reg r = s.reg r

/-- SHR halves the byte that P_SHIFT_SRC selects into VX and puts its bit 0 into VF, the flag last; nothing else changes
(spec/42_families_6-9.md Family 8; the source is the spec's D8, the nibble D6, the order at X = F D9). -/
def Obligations.ShrPutsTheLowBitIntoVF : Prop :=
  ∀ (x y : Reg) (s : State), Encodes (0x8#4 ++ x ++ y ++ 0x6#4) (.shr x y) ∧
    ∃ t, exec (.shr x y) s = .next t ∧ OnlyRegsChange s t ∧
      (x ≠ 0xF → (t.reg x).toNat = (shiftedByte s x y).toNat / 2) ∧
      (t.reg 0xF).toNat = (shiftedByte s x y).toNat % 2 ∧ ∀ r, r ≠ x → r ≠ 0xF → t.reg r = s.reg r

/-- SHL doubles the byte that P_SHIFT_SRC selects, modulo 256, into VX and puts its bit 7 into VF, or always 0 under
P_SHL_FLAG_SHIFT = 15, the flag last; nothing else changes (spec/42_families_6-9.md Family 8; the source is the spec's D8,
the flag shift D12, the order at X = F D9). -/
def Obligations.ShlPutsTheHighBitIntoVF : Prop :=
  ∀ (x y : Reg) (s : State), Encodes (0x8#4 ++ x ++ y ++ 0xE#4) (.shl x y) ∧
    ∃ t, exec (.shl x y) s = .next t ∧ OnlyRegsChange s t ∧
      (x ≠ 0xF → (t.reg x).toNat = (shiftedByte s x y).toNat * 2 % 256) ∧
      (s.params.shlFlagShift = .seven → (t.reg 0xF).toNat = (shiftedByte s x y).toNat / 128) ∧
      (s.params.shlFlagShift = .fifteen → t.reg 0xF = 0x00) ∧ ∀ r, r ≠ x → r ≠ 0xF → t.reg r = s.reg r

/-! ## Families A to D -/

/-- R170: LD_I sets I to the zero-extended NNN and nothing else changes. -/
def Obligations.LdISetsTheIndex : Prop :=
  ∀ (nnn : Addr12) (s : State), Encodes (0xA#4 ++ nnn) (.ldI nnn) ∧
    ∃ t, exec (.ldI nnn) s = .next t ∧ t.i.toNat = nnn.toNat ∧ t = { s with i := t.i } ∧
      ∀ a, t.mem.read a = s.mem.read a

/-- RND takes one draw and puts NN AND the draw into VX, whatever the generator gives (the draw is a free value, log 4);
nothing else changes but the count of draws (spec/43_families_A-D.md Family C; the draw is the spec's D22). -/
def Obligations.RndMasksOneFreeDraw : Prop :=
  ∀ (x : Reg) (nn : Byte) (s : State), Encodes (0xC#4 ++ x ++ nn) (.rnd x nn) ∧
    ∃ t, exec (.rnd x nn) s = .next t ∧
      (∀ k, (t.reg x).getLsbD k = (nn.getLsbD k && (Config.randByte s.draws).getLsbD k)) ∧
      (∀ r, r ≠ x → t.reg r = s.reg r) ∧ t.draws = s.draws + 1 ∧ t = { s with v := t.v, draws := t.draws } ∧
      ∀ a, t.mem.read a = s.mem.read a

/-- DRW within memory, N = 0 included: exactly the pixels the sprite covers are flipped, VF is 1 if a lit pixel was unset
and 0 if none was, needs_render is set if a row was touched, and nothing else changes (spec/43_families_A-D.md Family D;
the row width is the spec's D11, N = 0 its D31). -/
def Obligations.DrwXorsTheSprite : Prop :=
  ∀ (x y : Reg) (n : BitVec 4) (s : State), Encodes (0xD#4 ++ x ++ y ++ n) (.drw x y n) ∧
    (n = 0 ∨ s.i.toNat + n.toNat - 1 ≤ 0xFFF →
      ∃ t, exec (.drw x y n) s = .next t ∧
        (∀ p, SpriteCovers s x y n p → t.fb.pixel p = !s.fb.pixel p) ∧
        (∀ p, ¬ SpriteCovers s x y n p → t.fb.pixel p = s.fb.pixel p) ∧
        ((∃ p, s.fb.pixel p = true ∧ t.fb.pixel p = false) → t.reg 0xF = 0x01) ∧
        ((∀ p, s.fb.pixel p = true → t.fb.pixel p = true) → t.reg 0xF = 0x00) ∧
        (∀ r, r ≠ 0xF → t.reg r = s.reg r) ∧
        t.needsRender = (s.needsRender || decide (n ≠ 0)) ∧
        t = { s with v := t.v, fb := t.fb, needsRender := t.needsRender } ∧ ∀ a, t.mem.read a = s.mem.read a)

/-- DRW whose last sprite byte lies above 0xFFF faults with ADDRESS at the lowest address out of range and writes nothing
(spec/43_families_A-D.md Family D; the spec's D4, D30). -/
def Obligations.DrwBeyondMemoryFaults : Prop :=
  ∀ (x y : Reg) (n : BitVec 4) (s : State) (pc0 : Word), s.pc = pc0 + 2 → n ≠ 0 → 0xFFF < s.i.toNat + n.toNat - 1 →
    ∃ t, exec (.drw x y n) s = .next t ∧
      FaultsWith s t .address pc0 (0xD#4 ++ x ++ y ++ n) (if 0xFFF < s.i.toNat then s.i else 0x1000)

/-- The XOR involution law: a second DRW with the same I, memory, VX, VY and N and an untouched framebuffer restores every
pixel, and reports a collision if the first one lit a pixel (spec/43_families_A-D.md Family D). -/
def Obligations.DrawingTwiceRestoresTheScreen : Prop :=
  ∀ (x y : Reg) (n : BitVec 4) (s t u : State), (n = 0 ∨ s.i.toNat + n.toNat - 1 ≤ 0xFFF) →
    exec (.drw x y n) s = .next t → u.fb = t.fb → u.i = s.i → u.reg x = s.reg x → u.reg y = s.reg y →
    u.params = s.params → (∀ a, u.mem.read a = s.mem.read a) →
    ∃ t', exec (.drw x y n) u = .next t' ∧ t'.fb = s.fb ∧
      ((∃ p, s.fb.pixel p = false ∧ t.fb.pixel p = true) → t'.reg 0xF = 0x01)

/-! ## Families E and F -/

/-- SKP and SKNP with a key index up to 0x0F: SKP skips when the key is pressed, SKNP when it is not, and nothing else
changes (spec/44_families_E-F.md Family E). -/
def Obligations.KeySkipsReadTheKeypad : Prop :=
  ∀ (x k : Reg) (s : State) (pc0 : Word), s.pc = pc0 + 2 → (s.reg x).toNat = k.toNat →
    (Encodes (0xE#4 ++ x ++ 0x9E#8) (.skp x) ∧ ∃ t, exec (.skp x) s = .next t ∧
      t.pc = (if s.key k = true then pc0 + 4 else pc0 + 2) ∧ OnlyPcChanges s t) ∧
    (Encodes (0xE#4 ++ x ++ 0xA1#8) (.sknp x) ∧ ∃ t, exec (.sknp x) s = .next t ∧
      t.pc = (if s.key k = true then pc0 + 2 else pc0 + 4) ∧ OnlyPcChanges s t)

/-- SKP and SKNP with VX above 0x0F fault with ADDRESS and the key index (spec/44_families_E-F.md Family E; the fault is
the spec's D32). -/
def Obligations.KeyIndexAboveFifteenFaults : Prop :=
  ∀ (x : Reg) (s : State) (pc0 : Word), s.pc = pc0 + 2 → 0x0F < (s.reg x).toNat →
    (∃ t, exec (.skp x) s = .next t ∧
      FaultsWith s t .address pc0 (0xE#4 ++ x ++ 0x9E#8) (BitVec.ofNat 16 (s.reg x).toNat)) ∧
    (∃ t, exec (.sknp x) s = .next t ∧
      FaultsWith s t .address pc0 (0xE#4 ++ x ++ 0xA1#8) (BitVec.ofNat 16 (s.reg x).toNat))

/-- R193 and R195: LD_Vx_DT copies DT to VX, LD_DT_Vx copies VX to DT, and nothing else changes; in a Step, LD_Vx_DT reads
DT after this Step's decay, and the value LD_DT_Vx writes is not decayed in it. -/
def Obligations.DelayTimerIsReadAndSet : Prop :=
  ∀ (x : Reg) (s : State),
    (Encodes (0xF#4 ++ x ++ 0x07#8) (.ldVxDt x) ∧ ∃ t, exec (.ldVxDt x) s = .next t ∧ OnlyRegsChange s t ∧
      ∀ r, t.reg r = if r = x then s.dt else s.reg r) ∧
    (s.runState = .running → s.nextInstr = some (.ldVxDt x) →
      ∃ t, step s = .next t ∧ (t.reg x).toNat = s.dt.toNat - 1) ∧
    (Encodes (0xF#4 ++ x ++ 0x15#8) (.ldDtVx x) ∧ ∃ t, exec (.ldDtVx x) s = .next t ∧ t.dt = s.reg x ∧
      t = { s with dt := t.dt } ∧ ∀ a, t.mem.read a = s.mem.read a) ∧
    (s.runState = .running → s.nextInstr = some (.ldDtVx x) → ∃ t, step s = .next t ∧ t.dt = s.reg x)

/-- LD_ST_Vx copies VX to ST and nothing else changes; a Step that executes it reports SoundStopped only if ST was 1
before its decay, whatever is written (spec/44_families_E-F.md Family F; the event as an output is the spec's D25). -/
def Obligations.SoundTimerIsSet : Prop :=
  ∀ (x : Reg) (s : State), Encodes (0xF#4 ++ x ++ 0x18#8) (.ldStVx x) ∧
    (∃ t, exec (.ldStVx x) s = .next t ∧ t.st = s.reg x ∧ t = { s with st := t.st } ∧
      ∀ a, t.mem.read a = s.mem.read a) ∧
    (s.runState = .running → s.nextInstr = some (.ldStVx x) → ((stepOutput s).soundStopped = true ↔ s.st = 1))

/-- LD_Vx_K records X in wait_reg and enters AwaitingKey; it writes nothing else, V[X] and PC included
(spec/44_families_E-F.md Family F). In the wait a Step has no effect but to set `loaded`, which is set already in every
state of a run (spec/40_cycle.md section 1; DEDUCED, log 13); a press report of a key that was pressed already changes
nothing, and a press of one that was not writes the key into V[X] and goes back to Running (its section 2; held keys are
the spec's D23, log 12). -/
def Obligations.KeyWaitIsEntered : Prop :=
  ∀ (x : Reg) (s : State), Encodes (0xF#4 ++ x ++ 0x0A#8) (.ldVxK x) ∧
    ∃ t, exec (.ldVxK x) s = .next t ∧ t.waitReg = x ∧ t.runState = .awaitingKey ∧
      t = { s with waitReg := t.waitReg, runState := t.runState } ∧ (∀ a, t.mem.read a = s.mem.read a) ∧
      step t = .next { t with loaded := true } ∧
      (∀ k, s.key k = true → setKey k true t = t) ∧
      ∀ k, s.key k = false → ((setKey k true t).reg x).toNat = k.toNat ∧ (setKey k true t).runState = .running

/-- The key-wait gating law: after FX0A any number of Steps changes nothing and reports nothing; then a SetKey that
reports a new press puts the key into VX and goes back to Running (spec/44_families_E-F.md, laws of families E and F). -/
def Obligations.KeyWaitGatesEveryStep : Prop :=
  ∀ (x : Reg) (s : State), s.loaded = true →
    ∃ t, exec (.ldVxK x) s = .next t ∧
      ∀ n : Nat, runTransactions (List.replicate n .step) t =
          some (List.replicate n (.step { soundStopped := false }), t) ∧
        ∀ k : Reg, s.key k = false → ∃ u, transact (.setKey k true) t = some (.nothing, u) ∧
          (u.reg x).toNat = k.toNat ∧ (∀ r, r ≠ x → u.reg r = s.reg r) ∧ u.runState = .running ∧
          (∀ j, u.key j = if j = k then true else s.key j) ∧
          u = { s with v := u.v, keys := u.keys, runState := u.runState, waitReg := x }

/-- ADD_I_Vx adds VX to I modulo 2^16 with no flag and no fault, and nothing else changes (spec/44_families_E-F.md Family
F, spec/10_state.md section 3; wrap and no flag are the spec's D14, no fault its D15; log 12). -/
def Obligations.AddIVxAddsToTheIndex : Prop :=
  ∀ (x : Reg) (s : State), Encodes (0xF#4 ++ x ++ 0x1E#8) (.addIVx x) ∧
    ∃ t, exec (.addIVx x) s = .next t ∧ t.i.toNat = (s.i.toNat + (s.reg x).toNat) % 65536 ∧
      t = { s with i := t.i } ∧ ∀ a, t.mem.read a = s.mem.read a

/-- R198: LD_F_Vx sets I to 5 times VX, also for VX above 15, and nothing else changes. -/
def Obligations.LdFVxPointsAtTheGlyph : Prop :=
  ∀ (x : Reg) (s : State), Encodes (0xF#4 ++ x ++ 0x29#8) (.ldFVx x) ∧
    ∃ t, exec (.ldFVx x) s = .next t ∧ t.i.toNat = 5 * (s.reg x).toNat ∧ t = { s with i := t.i } ∧
      ∀ a, t.mem.read a = s.mem.read a

/-- R199: LD_B_Vx stores the hundreds, tens and ones of VX at I, I + 1 and I + 2 and nothing else; when I + 2 lies above
0xFFF it faults with ADDRESS before any write. -/
def Obligations.LdBVxStoresTheDigits : Prop :=
  ∀ (x : Reg) (s : State), Encodes (0xF#4 ++ x ++ 0x33#8) (.ldBVx x) ∧
    (s.i.toNat + 2 ≤ 0xFFF → ∃ t, exec (.ldBVx x) s = .next t ∧
      (t.mem.read s.i.toNat).toNat = (s.reg x).toNat / 100 ∧
      (t.mem.read (s.i.toNat + 1)).toNat = (s.reg x).toNat / 10 % 10 ∧
      (t.mem.read (s.i.toNat + 2)).toNat = (s.reg x).toNat % 10 ∧
      (∀ a, a < s.i.toNat ∨ s.i.toNat + 2 < a → t.mem.read a = s.mem.read a) ∧ t = { s with mem := t.mem }) ∧
    (0xFFF < s.i.toNat + 2 → ∀ pc0, s.pc = pc0 + 2 → ∃ t, exec (.ldBVx x) s = .next t ∧
      FaultsWith s t .address pc0 (0xF#4 ++ x ++ 0x33#8) (BitVec.ofNat 16 (max s.i.toNat 0x1000)))

/-- LD_mem_Vx stores V0..VX at I..I+X and nothing else, I included; when I + X lies above 0xFFF it faults with ADDRESS
before any write (spec/44_families_E-F.md Family F; that I is kept is the spec's D13). -/
def Obligations.LdMemVxStoresTheRegisters : Prop :=
  ∀ (x : Reg) (s : State), Encodes (0xF#4 ++ x ++ 0x55#8) (.ldMemVx x) ∧
    (s.i.toNat + x.toNat ≤ 0xFFF → ∃ t, exec (.ldMemVx x) s = .next t ∧
      (∀ r : Reg, r.toNat ≤ x.toNat → t.mem.read (s.i.toNat + r.toNat) = s.reg r) ∧
      (∀ a, a < s.i.toNat ∨ s.i.toNat + x.toNat < a → t.mem.read a = s.mem.read a) ∧ t = { s with mem := t.mem }) ∧
    (0xFFF < s.i.toNat + x.toNat → ∀ pc0, s.pc = pc0 + 2 → ∃ t, exec (.ldMemVx x) s = .next t ∧
      FaultsWith s t .address pc0 (0xF#4 ++ x ++ 0x55#8) (BitVec.ofNat 16 (max s.i.toNat 0x1000)))

/-- LD_Vx_mem loads V0..VX from I..I+X and nothing else changes, I included; when I + X lies above 0xFFF it faults with
ADDRESS before any write (spec/44_families_E-F.md Family F; that I is kept is the spec's D13). -/
def Obligations.LdVxMemLoadsTheRegisters : Prop :=
  ∀ (x : Reg) (s : State), Encodes (0xF#4 ++ x ++ 0x65#8) (.ldVxMem x) ∧
    (s.i.toNat + x.toNat ≤ 0xFFF → ∃ t, exec (.ldVxMem x) s = .next t ∧ OnlyRegsChange s t ∧
      ∀ r : Reg, t.reg r = if r.toNat ≤ x.toNat then s.mem.read (s.i.toNat + r.toNat) else s.reg r) ∧
    (0xFFF < s.i.toNat + x.toNat → ∀ pc0, s.pc = pc0 + 2 → ∃ t, exec (.ldVxMem x) s = .next t ∧
      FaultsWith s t .address pc0 (0xF#4 ++ x ++ 0x65#8) (BitVec.ofNat 16 (max s.i.toNat 0x1000)))

/-! ## The host's transactions -/

/-- The values a Reset leaves (spec/70_reset_and_hazards.md section 1; those that the source does not name are the spec's
D19, D26, D30, log 2): memory is the font's bytes and zeros, for the font of any parameters; and `State.reset` is what
the default parameters give (log 3). -/
def Obligations.ResetLeavesTheListedValues : Prop :=
  State.construct defaultParams = State.reset ∧
  ∀ (s : State), ∃ t, transact .reset s = some (.nothing, t) ∧
    (∀ a, t.mem.read a = if h : a < 80 then s.params.font[a] else 0x00) ∧ (∀ r, t.reg r = 0x00) ∧ t.i = 0x0000 ∧
    t.pc = 0x0200 ∧ t.sp = 0 ∧ (∀ (k : Nat) (hk : k < 16), t.stack[k] = 0x0000) ∧ t.dt = 0x00 ∧ t.st = 0x00 ∧
    (∀ k, t.key k = false) ∧ (∀ p, t.fb.pixel p = false) ∧ t.needsRender = false ∧ t.runState = .running ∧
    t.waitReg = 0 ∧ t.fault = { cause := .none, pc := 0, word := 0, addr := 0 } ∧ t.loaded = false

/-- Load: no move once loaded; a missing or too long image fails and changes nothing; else the bytes stand from 0x200 on,
the rest of memory is as before, and the load window closes (spec/70_reset_and_hazards.md section 2; empty images and the
no-move are the spec's D26). -/
def Obligations.LoadPlacesTheImage : Prop :=
  ∀ (s : State) (b : List Byte),
    (s.loaded = true → transact (.load (some b)) s = none ∧ transact (.load none) s = none) ∧
    (s.loaded = false → transact (.load none) s = some (.load .failure, s)) ∧
    (s.loaded = false → 3584 < b.length → transact (.load (some b)) s = some (.load .failure, s)) ∧
    (s.loaded = false → b.length ≤ 3584 → ∃ t, transact (.load (some b)) s = some (.load .success, t) ∧
      (∀ (k : Nat) (hk : k < b.length), t.mem.read (0x200 + k) = b[k]) ∧
      (∀ a, a < 0x200 ∨ 0x200 + b.length ≤ a → t.mem.read a = s.mem.read a) ∧ t.loaded = true ∧
      t = { s with mem := t.mem, loaded := t.loaded })

/-- SetKey: nothing in Faulted; else it writes the key, and a press edge in AwaitingKey also puts the key index into
V[wait_reg] and goes back to Running; nothing else changes (spec/40_cycle.md section 2; the index type and Faulted are the
spec's D23). -/
def Obligations.SetKeyCompletesTheWaitOnAPressEdge : Prop :=
  ∀ (k : Reg) (pressed : Bool) (s : State), ∃ t, transact (.setKey k pressed) s = some (.nothing, t) ∧
    (s.runState = .faulted → t = s) ∧
    (s.runState ≠ .faulted → ∀ j, t.key j = if j = k then pressed else s.key j) ∧
    (s.runState = .awaitingKey → s.key k = false → pressed = true →
      (t.reg s.waitReg).toNat = k.toNat ∧ (∀ r, r ≠ s.waitReg → t.reg r = s.reg r) ∧ t.runState = .running ∧
      t = { s with v := t.v, keys := t.keys, runState := t.runState }) ∧
    (s.runState = .running ∨ (s.runState = .awaitingKey ∧ (s.key k = true ∨ pressed = false)) →
      t = { s with keys := t.keys })

/-- ReadFramebuffer gives the pixel (x, y) at index y * 64 + x of 2048 and changes nothing (spec/60_exceptions.md section
4; the layout is the spec's D24). -/
def Obligations.FramebufferCopyIsRowByRow : Prop :=
  ∀ s : State, ∃ l, transact .readFramebuffer s = some (.framebuffer l, s) ∧ l.length = 2048 ∧
    ∀ (x : Fin 64) (y : Fin 32), l[y.val * 64 + x.val]? = some (s.fb.pixel (x, y))
end

