-- ==== Sys2Proof/Laws/State.lean ====
section
/-! SUPPORT. What each named update of a state leaves in each field: one lemma per field per update. -/

namespace Sys2Proof.Machine

variable (s : State)

/-! ## State.setMem -/

@[simp] theorem State.setMem_mem (m : Memory) : (s.setMem m).mem = m := rfl
@[simp] theorem State.setMem_v (m : Memory) : (s.setMem m).v = s.v := rfl
@[simp] theorem State.setMem_i (m : Memory) : (s.setMem m).i = s.i := rfl
@[simp] theorem State.setMem_pc (m : Memory) : (s.setMem m).pc = s.pc := rfl
@[simp] theorem State.setMem_stack (m : Memory) : (s.setMem m).stack = s.stack := rfl
@[simp] theorem State.setMem_sp (m : Memory) : (s.setMem m).sp = s.sp := rfl
@[simp] theorem State.setMem_dt (m : Memory) : (s.setMem m).dt = s.dt := rfl
@[simp] theorem State.setMem_st (m : Memory) : (s.setMem m).st = s.st := rfl
@[simp] theorem State.setMem_keys (m : Memory) : (s.setMem m).keys = s.keys := rfl
@[simp] theorem State.setMem_fb (m : Memory) : (s.setMem m).fb = s.fb := rfl
@[simp] theorem State.setMem_needsRender (m : Memory) : (s.setMem m).needsRender = s.needsRender := rfl
@[simp] theorem State.setMem_runState (m : Memory) : (s.setMem m).runState = s.runState := rfl
@[simp] theorem State.setMem_waitReg (m : Memory) : (s.setMem m).waitReg = s.waitReg := rfl
@[simp] theorem State.setMem_fault (m : Memory) : (s.setMem m).fault = s.fault := rfl
@[simp] theorem State.setMem_loaded (m : Memory) : (s.setMem m).loaded = s.loaded := rfl
@[simp] theorem State.setMem_params (m : Memory) : (s.setMem m).params = s.params := rfl
@[simp] theorem State.setMem_draws (m : Memory) : (s.setMem m).draws = s.draws := rfl

/-! ## State.setV -/

@[simp] theorem State.setV_mem (v : Vector Byte 16) : (s.setV v).mem = s.mem := rfl
@[simp] theorem State.setV_v (v : Vector Byte 16) : (s.setV v).v = v := rfl
@[simp] theorem State.setV_i (v : Vector Byte 16) : (s.setV v).i = s.i := rfl
@[simp] theorem State.setV_pc (v : Vector Byte 16) : (s.setV v).pc = s.pc := rfl
@[simp] theorem State.setV_stack (v : Vector Byte 16) : (s.setV v).stack = s.stack := rfl
@[simp] theorem State.setV_sp (v : Vector Byte 16) : (s.setV v).sp = s.sp := rfl
@[simp] theorem State.setV_dt (v : Vector Byte 16) : (s.setV v).dt = s.dt := rfl
@[simp] theorem State.setV_st (v : Vector Byte 16) : (s.setV v).st = s.st := rfl
@[simp] theorem State.setV_keys (v : Vector Byte 16) : (s.setV v).keys = s.keys := rfl
@[simp] theorem State.setV_fb (v : Vector Byte 16) : (s.setV v).fb = s.fb := rfl
@[simp] theorem State.setV_needsRender (v : Vector Byte 16) : (s.setV v).needsRender = s.needsRender := rfl
@[simp] theorem State.setV_runState (v : Vector Byte 16) : (s.setV v).runState = s.runState := rfl
@[simp] theorem State.setV_waitReg (v : Vector Byte 16) : (s.setV v).waitReg = s.waitReg := rfl
@[simp] theorem State.setV_fault (v : Vector Byte 16) : (s.setV v).fault = s.fault := rfl
@[simp] theorem State.setV_loaded (v : Vector Byte 16) : (s.setV v).loaded = s.loaded := rfl
@[simp] theorem State.setV_params (v : Vector Byte 16) : (s.setV v).params = s.params := rfl
@[simp] theorem State.setV_draws (v : Vector Byte 16) : (s.setV v).draws = s.draws := rfl

/-! ## State.setI -/

@[simp] theorem State.setI_mem (a : Word) : (s.setI a).mem = s.mem := rfl
@[simp] theorem State.setI_v (a : Word) : (s.setI a).v = s.v := rfl
@[simp] theorem State.setI_i (a : Word) : (s.setI a).i = a := rfl
@[simp] theorem State.setI_pc (a : Word) : (s.setI a).pc = s.pc := rfl
@[simp] theorem State.setI_stack (a : Word) : (s.setI a).stack = s.stack := rfl
@[simp] theorem State.setI_sp (a : Word) : (s.setI a).sp = s.sp := rfl
@[simp] theorem State.setI_dt (a : Word) : (s.setI a).dt = s.dt := rfl
@[simp] theorem State.setI_st (a : Word) : (s.setI a).st = s.st := rfl
@[simp] theorem State.setI_keys (a : Word) : (s.setI a).keys = s.keys := rfl
@[simp] theorem State.setI_fb (a : Word) : (s.setI a).fb = s.fb := rfl
@[simp] theorem State.setI_needsRender (a : Word) : (s.setI a).needsRender = s.needsRender := rfl
@[simp] theorem State.setI_runState (a : Word) : (s.setI a).runState = s.runState := rfl
@[simp] theorem State.setI_waitReg (a : Word) : (s.setI a).waitReg = s.waitReg := rfl
@[simp] theorem State.setI_fault (a : Word) : (s.setI a).fault = s.fault := rfl
@[simp] theorem State.setI_loaded (a : Word) : (s.setI a).loaded = s.loaded := rfl
@[simp] theorem State.setI_params (a : Word) : (s.setI a).params = s.params := rfl
@[simp] theorem State.setI_draws (a : Word) : (s.setI a).draws = s.draws := rfl

/-! ## State.setPc -/

@[simp] theorem State.setPc_mem (a : Word) : (s.setPc a).mem = s.mem := rfl
@[simp] theorem State.setPc_v (a : Word) : (s.setPc a).v = s.v := rfl
@[simp] theorem State.setPc_i (a : Word) : (s.setPc a).i = s.i := rfl
@[simp] theorem State.setPc_pc (a : Word) : (s.setPc a).pc = a := rfl
@[simp] theorem State.setPc_stack (a : Word) : (s.setPc a).stack = s.stack := rfl
@[simp] theorem State.setPc_sp (a : Word) : (s.setPc a).sp = s.sp := rfl
@[simp] theorem State.setPc_dt (a : Word) : (s.setPc a).dt = s.dt := rfl
@[simp] theorem State.setPc_st (a : Word) : (s.setPc a).st = s.st := rfl
@[simp] theorem State.setPc_keys (a : Word) : (s.setPc a).keys = s.keys := rfl
@[simp] theorem State.setPc_fb (a : Word) : (s.setPc a).fb = s.fb := rfl
@[simp] theorem State.setPc_needsRender (a : Word) : (s.setPc a).needsRender = s.needsRender := rfl
@[simp] theorem State.setPc_runState (a : Word) : (s.setPc a).runState = s.runState := rfl
@[simp] theorem State.setPc_waitReg (a : Word) : (s.setPc a).waitReg = s.waitReg := rfl
@[simp] theorem State.setPc_fault (a : Word) : (s.setPc a).fault = s.fault := rfl
@[simp] theorem State.setPc_loaded (a : Word) : (s.setPc a).loaded = s.loaded := rfl
@[simp] theorem State.setPc_params (a : Word) : (s.setPc a).params = s.params := rfl
@[simp] theorem State.setPc_draws (a : Word) : (s.setPc a).draws = s.draws := rfl

/-! ## State.setStack -/

@[simp] theorem State.setStack_mem (k : Vector Word 16) (p : Fin 17) : (s.setStack k p).mem = s.mem := rfl
@[simp] theorem State.setStack_v (k : Vector Word 16) (p : Fin 17) : (s.setStack k p).v = s.v := rfl
@[simp] theorem State.setStack_i (k : Vector Word 16) (p : Fin 17) : (s.setStack k p).i = s.i := rfl
@[simp] theorem State.setStack_pc (k : Vector Word 16) (p : Fin 17) : (s.setStack k p).pc = s.pc := rfl
@[simp] theorem State.setStack_stack (k : Vector Word 16) (p : Fin 17) : (s.setStack k p).stack = k := rfl
@[simp] theorem State.setStack_sp (k : Vector Word 16) (p : Fin 17) : (s.setStack k p).sp = p := rfl
@[simp] theorem State.setStack_dt (k : Vector Word 16) (p : Fin 17) : (s.setStack k p).dt = s.dt := rfl
@[simp] theorem State.setStack_st (k : Vector Word 16) (p : Fin 17) : (s.setStack k p).st = s.st := rfl
@[simp] theorem State.setStack_keys (k : Vector Word 16) (p : Fin 17) : (s.setStack k p).keys = s.keys := rfl
@[simp] theorem State.setStack_fb (k : Vector Word 16) (p : Fin 17) : (s.setStack k p).fb = s.fb := rfl
@[simp] theorem State.setStack_needsRender (k : Vector Word 16) (p : Fin 17) : (s.setStack k p).needsRender = s.needsRender := rfl
@[simp] theorem State.setStack_runState (k : Vector Word 16) (p : Fin 17) : (s.setStack k p).runState = s.runState := rfl
@[simp] theorem State.setStack_waitReg (k : Vector Word 16) (p : Fin 17) : (s.setStack k p).waitReg = s.waitReg := rfl
@[simp] theorem State.setStack_fault (k : Vector Word 16) (p : Fin 17) : (s.setStack k p).fault = s.fault := rfl
@[simp] theorem State.setStack_loaded (k : Vector Word 16) (p : Fin 17) : (s.setStack k p).loaded = s.loaded := rfl
@[simp] theorem State.setStack_params (k : Vector Word 16) (p : Fin 17) : (s.setStack k p).params = s.params := rfl
@[simp] theorem State.setStack_draws (k : Vector Word 16) (p : Fin 17) : (s.setStack k p).draws = s.draws := rfl

/-! ## State.setDt -/

@[simp] theorem State.setDt_mem (b : Byte) : (s.setDt b).mem = s.mem := rfl
@[simp] theorem State.setDt_v (b : Byte) : (s.setDt b).v = s.v := rfl
@[simp] theorem State.setDt_i (b : Byte) : (s.setDt b).i = s.i := rfl
@[simp] theorem State.setDt_pc (b : Byte) : (s.setDt b).pc = s.pc := rfl
@[simp] theorem State.setDt_stack (b : Byte) : (s.setDt b).stack = s.stack := rfl
@[simp] theorem State.setDt_sp (b : Byte) : (s.setDt b).sp = s.sp := rfl
@[simp] theorem State.setDt_dt (b : Byte) : (s.setDt b).dt = b := rfl
@[simp] theorem State.setDt_st (b : Byte) : (s.setDt b).st = s.st := rfl
@[simp] theorem State.setDt_keys (b : Byte) : (s.setDt b).keys = s.keys := rfl
@[simp] theorem State.setDt_fb (b : Byte) : (s.setDt b).fb = s.fb := rfl
@[simp] theorem State.setDt_needsRender (b : Byte) : (s.setDt b).needsRender = s.needsRender := rfl
@[simp] theorem State.setDt_runState (b : Byte) : (s.setDt b).runState = s.runState := rfl
@[simp] theorem State.setDt_waitReg (b : Byte) : (s.setDt b).waitReg = s.waitReg := rfl
@[simp] theorem State.setDt_fault (b : Byte) : (s.setDt b).fault = s.fault := rfl
@[simp] theorem State.setDt_loaded (b : Byte) : (s.setDt b).loaded = s.loaded := rfl
@[simp] theorem State.setDt_params (b : Byte) : (s.setDt b).params = s.params := rfl
@[simp] theorem State.setDt_draws (b : Byte) : (s.setDt b).draws = s.draws := rfl

/-! ## State.setSt -/

@[simp] theorem State.setSt_mem (b : Byte) : (s.setSt b).mem = s.mem := rfl
@[simp] theorem State.setSt_v (b : Byte) : (s.setSt b).v = s.v := rfl
@[simp] theorem State.setSt_i (b : Byte) : (s.setSt b).i = s.i := rfl
@[simp] theorem State.setSt_pc (b : Byte) : (s.setSt b).pc = s.pc := rfl
@[simp] theorem State.setSt_stack (b : Byte) : (s.setSt b).stack = s.stack := rfl
@[simp] theorem State.setSt_sp (b : Byte) : (s.setSt b).sp = s.sp := rfl
@[simp] theorem State.setSt_dt (b : Byte) : (s.setSt b).dt = s.dt := rfl
@[simp] theorem State.setSt_st (b : Byte) : (s.setSt b).st = b := rfl
@[simp] theorem State.setSt_keys (b : Byte) : (s.setSt b).keys = s.keys := rfl
@[simp] theorem State.setSt_fb (b : Byte) : (s.setSt b).fb = s.fb := rfl
@[simp] theorem State.setSt_needsRender (b : Byte) : (s.setSt b).needsRender = s.needsRender := rfl
@[simp] theorem State.setSt_runState (b : Byte) : (s.setSt b).runState = s.runState := rfl
@[simp] theorem State.setSt_waitReg (b : Byte) : (s.setSt b).waitReg = s.waitReg := rfl
@[simp] theorem State.setSt_fault (b : Byte) : (s.setSt b).fault = s.fault := rfl
@[simp] theorem State.setSt_loaded (b : Byte) : (s.setSt b).loaded = s.loaded := rfl
@[simp] theorem State.setSt_params (b : Byte) : (s.setSt b).params = s.params := rfl
@[simp] theorem State.setSt_draws (b : Byte) : (s.setSt b).draws = s.draws := rfl

/-! ## State.setKeys -/

@[simp] theorem State.setKeys_mem (k : Vector Bool 16) : (s.setKeys k).mem = s.mem := rfl
@[simp] theorem State.setKeys_v (k : Vector Bool 16) : (s.setKeys k).v = s.v := rfl
@[simp] theorem State.setKeys_i (k : Vector Bool 16) : (s.setKeys k).i = s.i := rfl
@[simp] theorem State.setKeys_pc (k : Vector Bool 16) : (s.setKeys k).pc = s.pc := rfl
@[simp] theorem State.setKeys_stack (k : Vector Bool 16) : (s.setKeys k).stack = s.stack := rfl
@[simp] theorem State.setKeys_sp (k : Vector Bool 16) : (s.setKeys k).sp = s.sp := rfl
@[simp] theorem State.setKeys_dt (k : Vector Bool 16) : (s.setKeys k).dt = s.dt := rfl
@[simp] theorem State.setKeys_st (k : Vector Bool 16) : (s.setKeys k).st = s.st := rfl
@[simp] theorem State.setKeys_keys (k : Vector Bool 16) : (s.setKeys k).keys = k := rfl
@[simp] theorem State.setKeys_fb (k : Vector Bool 16) : (s.setKeys k).fb = s.fb := rfl
@[simp] theorem State.setKeys_needsRender (k : Vector Bool 16) : (s.setKeys k).needsRender = s.needsRender := rfl
@[simp] theorem State.setKeys_runState (k : Vector Bool 16) : (s.setKeys k).runState = s.runState := rfl
@[simp] theorem State.setKeys_waitReg (k : Vector Bool 16) : (s.setKeys k).waitReg = s.waitReg := rfl
@[simp] theorem State.setKeys_fault (k : Vector Bool 16) : (s.setKeys k).fault = s.fault := rfl
@[simp] theorem State.setKeys_loaded (k : Vector Bool 16) : (s.setKeys k).loaded = s.loaded := rfl
@[simp] theorem State.setKeys_params (k : Vector Bool 16) : (s.setKeys k).params = s.params := rfl
@[simp] theorem State.setKeys_draws (k : Vector Bool 16) : (s.setKeys k).draws = s.draws := rfl

/-! ## State.setFb -/

@[simp] theorem State.setFb_mem (f : Framebuffer) : (s.setFb f).mem = s.mem := rfl
@[simp] theorem State.setFb_v (f : Framebuffer) : (s.setFb f).v = s.v := rfl
@[simp] theorem State.setFb_i (f : Framebuffer) : (s.setFb f).i = s.i := rfl
@[simp] theorem State.setFb_pc (f : Framebuffer) : (s.setFb f).pc = s.pc := rfl
@[simp] theorem State.setFb_stack (f : Framebuffer) : (s.setFb f).stack = s.stack := rfl
@[simp] theorem State.setFb_sp (f : Framebuffer) : (s.setFb f).sp = s.sp := rfl
@[simp] theorem State.setFb_dt (f : Framebuffer) : (s.setFb f).dt = s.dt := rfl
@[simp] theorem State.setFb_st (f : Framebuffer) : (s.setFb f).st = s.st := rfl
@[simp] theorem State.setFb_keys (f : Framebuffer) : (s.setFb f).keys = s.keys := rfl
@[simp] theorem State.setFb_fb (f : Framebuffer) : (s.setFb f).fb = f := rfl
@[simp] theorem State.setFb_needsRender (f : Framebuffer) : (s.setFb f).needsRender = s.needsRender := rfl
@[simp] theorem State.setFb_runState (f : Framebuffer) : (s.setFb f).runState = s.runState := rfl
@[simp] theorem State.setFb_waitReg (f : Framebuffer) : (s.setFb f).waitReg = s.waitReg := rfl
@[simp] theorem State.setFb_fault (f : Framebuffer) : (s.setFb f).fault = s.fault := rfl
@[simp] theorem State.setFb_loaded (f : Framebuffer) : (s.setFb f).loaded = s.loaded := rfl
@[simp] theorem State.setFb_params (f : Framebuffer) : (s.setFb f).params = s.params := rfl
@[simp] theorem State.setFb_draws (f : Framebuffer) : (s.setFb f).draws = s.draws := rfl

/-! ## State.setNeedsRender -/

@[simp] theorem State.setNeedsRender_mem (b : Bool) : (s.setNeedsRender b).mem = s.mem := rfl
@[simp] theorem State.setNeedsRender_v (b : Bool) : (s.setNeedsRender b).v = s.v := rfl
@[simp] theorem State.setNeedsRender_i (b : Bool) : (s.setNeedsRender b).i = s.i := rfl
@[simp] theorem State.setNeedsRender_pc (b : Bool) : (s.setNeedsRender b).pc = s.pc := rfl
@[simp] theorem State.setNeedsRender_stack (b : Bool) : (s.setNeedsRender b).stack = s.stack := rfl
@[simp] theorem State.setNeedsRender_sp (b : Bool) : (s.setNeedsRender b).sp = s.sp := rfl
@[simp] theorem State.setNeedsRender_dt (b : Bool) : (s.setNeedsRender b).dt = s.dt := rfl
@[simp] theorem State.setNeedsRender_st (b : Bool) : (s.setNeedsRender b).st = s.st := rfl
@[simp] theorem State.setNeedsRender_keys (b : Bool) : (s.setNeedsRender b).keys = s.keys := rfl
@[simp] theorem State.setNeedsRender_fb (b : Bool) : (s.setNeedsRender b).fb = s.fb := rfl
@[simp] theorem State.setNeedsRender_needsRender (b : Bool) : (s.setNeedsRender b).needsRender = b := rfl
@[simp] theorem State.setNeedsRender_runState (b : Bool) : (s.setNeedsRender b).runState = s.runState := rfl
@[simp] theorem State.setNeedsRender_waitReg (b : Bool) : (s.setNeedsRender b).waitReg = s.waitReg := rfl
@[simp] theorem State.setNeedsRender_fault (b : Bool) : (s.setNeedsRender b).fault = s.fault := rfl
@[simp] theorem State.setNeedsRender_loaded (b : Bool) : (s.setNeedsRender b).loaded = s.loaded := rfl
@[simp] theorem State.setNeedsRender_params (b : Bool) : (s.setNeedsRender b).params = s.params := rfl
@[simp] theorem State.setNeedsRender_draws (b : Bool) : (s.setNeedsRender b).draws = s.draws := rfl

/-! ## State.setRunState -/

@[simp] theorem State.setRunState_mem (r : RunState) : (s.setRunState r).mem = s.mem := rfl
@[simp] theorem State.setRunState_v (r : RunState) : (s.setRunState r).v = s.v := rfl
@[simp] theorem State.setRunState_i (r : RunState) : (s.setRunState r).i = s.i := rfl
@[simp] theorem State.setRunState_pc (r : RunState) : (s.setRunState r).pc = s.pc := rfl
@[simp] theorem State.setRunState_stack (r : RunState) : (s.setRunState r).stack = s.stack := rfl
@[simp] theorem State.setRunState_sp (r : RunState) : (s.setRunState r).sp = s.sp := rfl
@[simp] theorem State.setRunState_dt (r : RunState) : (s.setRunState r).dt = s.dt := rfl
@[simp] theorem State.setRunState_st (r : RunState) : (s.setRunState r).st = s.st := rfl
@[simp] theorem State.setRunState_keys (r : RunState) : (s.setRunState r).keys = s.keys := rfl
@[simp] theorem State.setRunState_fb (r : RunState) : (s.setRunState r).fb = s.fb := rfl
@[simp] theorem State.setRunState_needsRender (r : RunState) : (s.setRunState r).needsRender = s.needsRender := rfl
@[simp] theorem State.setRunState_runState (r : RunState) : (s.setRunState r).runState = r := rfl
@[simp] theorem State.setRunState_waitReg (r : RunState) : (s.setRunState r).waitReg = s.waitReg := rfl
@[simp] theorem State.setRunState_fault (r : RunState) : (s.setRunState r).fault = s.fault := rfl
@[simp] theorem State.setRunState_loaded (r : RunState) : (s.setRunState r).loaded = s.loaded := rfl
@[simp] theorem State.setRunState_params (r : RunState) : (s.setRunState r).params = s.params := rfl
@[simp] theorem State.setRunState_draws (r : RunState) : (s.setRunState r).draws = s.draws := rfl

/-! ## State.setWaitReg -/

@[simp] theorem State.setWaitReg_mem (x : Reg) : (s.setWaitReg x).mem = s.mem := rfl
@[simp] theorem State.setWaitReg_v (x : Reg) : (s.setWaitReg x).v = s.v := rfl
@[simp] theorem State.setWaitReg_i (x : Reg) : (s.setWaitReg x).i = s.i := rfl
@[simp] theorem State.setWaitReg_pc (x : Reg) : (s.setWaitReg x).pc = s.pc := rfl
@[simp] theorem State.setWaitReg_stack (x : Reg) : (s.setWaitReg x).stack = s.stack := rfl
@[simp] theorem State.setWaitReg_sp (x : Reg) : (s.setWaitReg x).sp = s.sp := rfl
@[simp] theorem State.setWaitReg_dt (x : Reg) : (s.setWaitReg x).dt = s.dt := rfl
@[simp] theorem State.setWaitReg_st (x : Reg) : (s.setWaitReg x).st = s.st := rfl
@[simp] theorem State.setWaitReg_keys (x : Reg) : (s.setWaitReg x).keys = s.keys := rfl
@[simp] theorem State.setWaitReg_fb (x : Reg) : (s.setWaitReg x).fb = s.fb := rfl
@[simp] theorem State.setWaitReg_needsRender (x : Reg) : (s.setWaitReg x).needsRender = s.needsRender := rfl
@[simp] theorem State.setWaitReg_runState (x : Reg) : (s.setWaitReg x).runState = s.runState := rfl
@[simp] theorem State.setWaitReg_waitReg (x : Reg) : (s.setWaitReg x).waitReg = x := rfl
@[simp] theorem State.setWaitReg_fault (x : Reg) : (s.setWaitReg x).fault = s.fault := rfl
@[simp] theorem State.setWaitReg_loaded (x : Reg) : (s.setWaitReg x).loaded = s.loaded := rfl
@[simp] theorem State.setWaitReg_params (x : Reg) : (s.setWaitReg x).params = s.params := rfl
@[simp] theorem State.setWaitReg_draws (x : Reg) : (s.setWaitReg x).draws = s.draws := rfl

/-! ## State.setLoaded -/

@[simp] theorem State.setLoaded_mem (b : Bool) : (s.setLoaded b).mem = s.mem := rfl
@[simp] theorem State.setLoaded_v (b : Bool) : (s.setLoaded b).v = s.v := rfl
@[simp] theorem State.setLoaded_i (b : Bool) : (s.setLoaded b).i = s.i := rfl
@[simp] theorem State.setLoaded_pc (b : Bool) : (s.setLoaded b).pc = s.pc := rfl
@[simp] theorem State.setLoaded_stack (b : Bool) : (s.setLoaded b).stack = s.stack := rfl
@[simp] theorem State.setLoaded_sp (b : Bool) : (s.setLoaded b).sp = s.sp := rfl
@[simp] theorem State.setLoaded_dt (b : Bool) : (s.setLoaded b).dt = s.dt := rfl
@[simp] theorem State.setLoaded_st (b : Bool) : (s.setLoaded b).st = s.st := rfl
@[simp] theorem State.setLoaded_keys (b : Bool) : (s.setLoaded b).keys = s.keys := rfl
@[simp] theorem State.setLoaded_fb (b : Bool) : (s.setLoaded b).fb = s.fb := rfl
@[simp] theorem State.setLoaded_needsRender (b : Bool) : (s.setLoaded b).needsRender = s.needsRender := rfl
@[simp] theorem State.setLoaded_runState (b : Bool) : (s.setLoaded b).runState = s.runState := rfl
@[simp] theorem State.setLoaded_waitReg (b : Bool) : (s.setLoaded b).waitReg = s.waitReg := rfl
@[simp] theorem State.setLoaded_fault (b : Bool) : (s.setLoaded b).fault = s.fault := rfl
@[simp] theorem State.setLoaded_loaded (b : Bool) : (s.setLoaded b).loaded = b := rfl
@[simp] theorem State.setLoaded_params (b : Bool) : (s.setLoaded b).params = s.params := rfl
@[simp] theorem State.setLoaded_draws (b : Bool) : (s.setLoaded b).draws = s.draws := rfl

/-! ## State.setDraws -/

@[simp] theorem State.setDraws_mem (n : Nat) : (s.setDraws n).mem = s.mem := rfl
@[simp] theorem State.setDraws_v (n : Nat) : (s.setDraws n).v = s.v := rfl
@[simp] theorem State.setDraws_i (n : Nat) : (s.setDraws n).i = s.i := rfl
@[simp] theorem State.setDraws_pc (n : Nat) : (s.setDraws n).pc = s.pc := rfl
@[simp] theorem State.setDraws_stack (n : Nat) : (s.setDraws n).stack = s.stack := rfl
@[simp] theorem State.setDraws_sp (n : Nat) : (s.setDraws n).sp = s.sp := rfl
@[simp] theorem State.setDraws_dt (n : Nat) : (s.setDraws n).dt = s.dt := rfl
@[simp] theorem State.setDraws_st (n : Nat) : (s.setDraws n).st = s.st := rfl
@[simp] theorem State.setDraws_keys (n : Nat) : (s.setDraws n).keys = s.keys := rfl
@[simp] theorem State.setDraws_fb (n : Nat) : (s.setDraws n).fb = s.fb := rfl
@[simp] theorem State.setDraws_needsRender (n : Nat) : (s.setDraws n).needsRender = s.needsRender := rfl
@[simp] theorem State.setDraws_runState (n : Nat) : (s.setDraws n).runState = s.runState := rfl
@[simp] theorem State.setDraws_waitReg (n : Nat) : (s.setDraws n).waitReg = s.waitReg := rfl
@[simp] theorem State.setDraws_fault (n : Nat) : (s.setDraws n).fault = s.fault := rfl
@[simp] theorem State.setDraws_loaded (n : Nat) : (s.setDraws n).loaded = s.loaded := rfl
@[simp] theorem State.setDraws_params (n : Nat) : (s.setDraws n).params = s.params := rfl
@[simp] theorem State.setDraws_draws (n : Nat) : (s.setDraws n).draws = n := rfl

/-! ## State.setReg -/

@[simp] theorem State.setReg_mem (r : Reg) (b : Byte) : (s.setReg r b).mem = s.mem := rfl
@[simp] theorem State.setReg_v (r : Reg) (b : Byte) : (s.setReg r b).v = s.v.set r.toNat b r.isLt := rfl
@[simp] theorem State.setReg_i (r : Reg) (b : Byte) : (s.setReg r b).i = s.i := rfl
@[simp] theorem State.setReg_pc (r : Reg) (b : Byte) : (s.setReg r b).pc = s.pc := rfl
@[simp] theorem State.setReg_stack (r : Reg) (b : Byte) : (s.setReg r b).stack = s.stack := rfl
@[simp] theorem State.setReg_sp (r : Reg) (b : Byte) : (s.setReg r b).sp = s.sp := rfl
@[simp] theorem State.setReg_dt (r : Reg) (b : Byte) : (s.setReg r b).dt = s.dt := rfl
@[simp] theorem State.setReg_st (r : Reg) (b : Byte) : (s.setReg r b).st = s.st := rfl
@[simp] theorem State.setReg_keys (r : Reg) (b : Byte) : (s.setReg r b).keys = s.keys := rfl
@[simp] theorem State.setReg_fb (r : Reg) (b : Byte) : (s.setReg r b).fb = s.fb := rfl
@[simp] theorem State.setReg_needsRender (r : Reg) (b : Byte) : (s.setReg r b).needsRender = s.needsRender := rfl
@[simp] theorem State.setReg_runState (r : Reg) (b : Byte) : (s.setReg r b).runState = s.runState := rfl
@[simp] theorem State.setReg_waitReg (r : Reg) (b : Byte) : (s.setReg r b).waitReg = s.waitReg := rfl
@[simp] theorem State.setReg_fault (r : Reg) (b : Byte) : (s.setReg r b).fault = s.fault := rfl
@[simp] theorem State.setReg_loaded (r : Reg) (b : Byte) : (s.setReg r b).loaded = s.loaded := rfl
@[simp] theorem State.setReg_params (r : Reg) (b : Byte) : (s.setReg r b).params = s.params := rfl
@[simp] theorem State.setReg_draws (r : Reg) (b : Byte) : (s.setReg r b).draws = s.draws := rfl

/-! ## State.setResultAndFlag -/

@[simp] theorem State.setResultAndFlag_mem (r : Reg) (b c : Byte) : (s.setResultAndFlag r b c).mem = s.mem := rfl
@[simp] theorem State.setResultAndFlag_i (r : Reg) (b c : Byte) : (s.setResultAndFlag r b c).i = s.i := rfl
@[simp] theorem State.setResultAndFlag_pc (r : Reg) (b c : Byte) : (s.setResultAndFlag r b c).pc = s.pc := rfl
@[simp] theorem State.setResultAndFlag_stack (r : Reg) (b c : Byte) : (s.setResultAndFlag r b c).stack = s.stack := rfl
@[simp] theorem State.setResultAndFlag_sp (r : Reg) (b c : Byte) : (s.setResultAndFlag r b c).sp = s.sp := rfl
@[simp] theorem State.setResultAndFlag_dt (r : Reg) (b c : Byte) : (s.setResultAndFlag r b c).dt = s.dt := rfl
@[simp] theorem State.setResultAndFlag_st (r : Reg) (b c : Byte) : (s.setResultAndFlag r b c).st = s.st := rfl
@[simp] theorem State.setResultAndFlag_keys (r : Reg) (b c : Byte) : (s.setResultAndFlag r b c).keys = s.keys := rfl
@[simp] theorem State.setResultAndFlag_fb (r : Reg) (b c : Byte) : (s.setResultAndFlag r b c).fb = s.fb := rfl
@[simp] theorem State.setResultAndFlag_needsRender (r : Reg) (b c : Byte) : (s.setResultAndFlag r b c).needsRender = s.needsRender := rfl
@[simp] theorem State.setResultAndFlag_runState (r : Reg) (b c : Byte) : (s.setResultAndFlag r b c).runState = s.runState := rfl
@[simp] theorem State.setResultAndFlag_waitReg (r : Reg) (b c : Byte) : (s.setResultAndFlag r b c).waitReg = s.waitReg := rfl
@[simp] theorem State.setResultAndFlag_fault (r : Reg) (b c : Byte) : (s.setResultAndFlag r b c).fault = s.fault := rfl
@[simp] theorem State.setResultAndFlag_loaded (r : Reg) (b c : Byte) : (s.setResultAndFlag r b c).loaded = s.loaded := rfl
@[simp] theorem State.setResultAndFlag_params (r : Reg) (b c : Byte) : (s.setResultAndFlag r b c).params = s.params := rfl
@[simp] theorem State.setResultAndFlag_draws (r : Reg) (b c : Byte) : (s.setResultAndFlag r b c).draws = s.draws := rfl

/-! ## State.setKey -/

@[simp] theorem State.setKey_mem (k : Reg) (b : Bool) : (s.setKey k b).mem = s.mem := rfl
@[simp] theorem State.setKey_v (k : Reg) (b : Bool) : (s.setKey k b).v = s.v := rfl
@[simp] theorem State.setKey_i (k : Reg) (b : Bool) : (s.setKey k b).i = s.i := rfl
@[simp] theorem State.setKey_pc (k : Reg) (b : Bool) : (s.setKey k b).pc = s.pc := rfl
@[simp] theorem State.setKey_stack (k : Reg) (b : Bool) : (s.setKey k b).stack = s.stack := rfl
@[simp] theorem State.setKey_sp (k : Reg) (b : Bool) : (s.setKey k b).sp = s.sp := rfl
@[simp] theorem State.setKey_dt (k : Reg) (b : Bool) : (s.setKey k b).dt = s.dt := rfl
@[simp] theorem State.setKey_st (k : Reg) (b : Bool) : (s.setKey k b).st = s.st := rfl
@[simp] theorem State.setKey_keys (k : Reg) (b : Bool) : (s.setKey k b).keys = s.keys.set k.toNat b k.isLt := rfl
@[simp] theorem State.setKey_fb (k : Reg) (b : Bool) : (s.setKey k b).fb = s.fb := rfl
@[simp] theorem State.setKey_needsRender (k : Reg) (b : Bool) : (s.setKey k b).needsRender = s.needsRender := rfl
@[simp] theorem State.setKey_runState (k : Reg) (b : Bool) : (s.setKey k b).runState = s.runState := rfl
@[simp] theorem State.setKey_waitReg (k : Reg) (b : Bool) : (s.setKey k b).waitReg = s.waitReg := rfl
@[simp] theorem State.setKey_fault (k : Reg) (b : Bool) : (s.setKey k b).fault = s.fault := rfl
@[simp] theorem State.setKey_loaded (k : Reg) (b : Bool) : (s.setKey k b).loaded = s.loaded := rfl
@[simp] theorem State.setKey_params (k : Reg) (b : Bool) : (s.setKey k b).params = s.params := rfl
@[simp] theorem State.setKey_draws (k : Reg) (b : Bool) : (s.setKey k b).draws = s.draws := rfl

/-! ## State.raiseFault -/

@[simp] theorem State.raiseFault_mem (c : Cause) (p w a : Word) : (s.raiseFault c p w a).mem = s.mem := rfl
@[simp] theorem State.raiseFault_v (c : Cause) (p w a : Word) : (s.raiseFault c p w a).v = s.v := rfl
@[simp] theorem State.raiseFault_i (c : Cause) (p w a : Word) : (s.raiseFault c p w a).i = s.i := rfl
@[simp] theorem State.raiseFault_pc (c : Cause) (p w a : Word) : (s.raiseFault c p w a).pc = s.pc := rfl
@[simp] theorem State.raiseFault_stack (c : Cause) (p w a : Word) : (s.raiseFault c p w a).stack = s.stack := rfl
@[simp] theorem State.raiseFault_sp (c : Cause) (p w a : Word) : (s.raiseFault c p w a).sp = s.sp := rfl
@[simp] theorem State.raiseFault_dt (c : Cause) (p w a : Word) : (s.raiseFault c p w a).dt = s.dt := rfl
@[simp] theorem State.raiseFault_st (c : Cause) (p w a : Word) : (s.raiseFault c p w a).st = s.st := rfl
@[simp] theorem State.raiseFault_keys (c : Cause) (p w a : Word) : (s.raiseFault c p w a).keys = s.keys := rfl
@[simp] theorem State.raiseFault_fb (c : Cause) (p w a : Word) : (s.raiseFault c p w a).fb = s.fb := rfl
@[simp] theorem State.raiseFault_needsRender (c : Cause) (p w a : Word) : (s.raiseFault c p w a).needsRender = s.needsRender := rfl
@[simp] theorem State.raiseFault_runState (c : Cause) (p w a : Word) : (s.raiseFault c p w a).runState = .faulted := rfl
@[simp] theorem State.raiseFault_waitReg (c : Cause) (p w a : Word) : (s.raiseFault c p w a).waitReg = s.waitReg := rfl
@[simp] theorem State.raiseFault_fault (c : Cause) (p w a : Word) : (s.raiseFault c p w a).fault = ⟨c, p, w, a⟩ := rfl
@[simp] theorem State.raiseFault_loaded (c : Cause) (p w a : Word) : (s.raiseFault c p w a).loaded = s.loaded := rfl
@[simp] theorem State.raiseFault_params (c : Cause) (p w a : Word) : (s.raiseFault c p w a).params = s.params := rfl
@[simp] theorem State.raiseFault_draws (c : Cause) (p w a : Word) : (s.raiseFault c p w a).draws = s.draws := rfl

/-! ## State.faultIn -/

@[simp] theorem State.faultIn_mem (i : Instr) (c : Cause) (a : Word) : (s.faultIn i c a).mem = s.mem := rfl
@[simp] theorem State.faultIn_v (i : Instr) (c : Cause) (a : Word) : (s.faultIn i c a).v = s.v := rfl
@[simp] theorem State.faultIn_i (i : Instr) (c : Cause) (a : Word) : (s.faultIn i c a).i = s.i := rfl
@[simp] theorem State.faultIn_pc (i : Instr) (c : Cause) (a : Word) : (s.faultIn i c a).pc = s.pc := rfl
@[simp] theorem State.faultIn_stack (i : Instr) (c : Cause) (a : Word) : (s.faultIn i c a).stack = s.stack := rfl
@[simp] theorem State.faultIn_sp (i : Instr) (c : Cause) (a : Word) : (s.faultIn i c a).sp = s.sp := rfl
@[simp] theorem State.faultIn_dt (i : Instr) (c : Cause) (a : Word) : (s.faultIn i c a).dt = s.dt := rfl
@[simp] theorem State.faultIn_st (i : Instr) (c : Cause) (a : Word) : (s.faultIn i c a).st = s.st := rfl
@[simp] theorem State.faultIn_keys (i : Instr) (c : Cause) (a : Word) : (s.faultIn i c a).keys = s.keys := rfl
@[simp] theorem State.faultIn_fb (i : Instr) (c : Cause) (a : Word) : (s.faultIn i c a).fb = s.fb := rfl
@[simp] theorem State.faultIn_needsRender (i : Instr) (c : Cause) (a : Word) : (s.faultIn i c a).needsRender = s.needsRender := rfl
@[simp] theorem State.faultIn_runState (i : Instr) (c : Cause) (a : Word) : (s.faultIn i c a).runState = .faulted := rfl
@[simp] theorem State.faultIn_waitReg (i : Instr) (c : Cause) (a : Word) : (s.faultIn i c a).waitReg = s.waitReg := rfl
@[simp] theorem State.faultIn_fault (i : Instr) (c : Cause) (a : Word) : (s.faultIn i c a).fault = ⟨c, s.pc - 2, encode i, a⟩ := rfl
@[simp] theorem State.faultIn_loaded (i : Instr) (c : Cause) (a : Word) : (s.faultIn i c a).loaded = s.loaded := rfl
@[simp] theorem State.faultIn_params (i : Instr) (c : Cause) (a : Word) : (s.faultIn i c a).params = s.params := rfl
@[simp] theorem State.faultIn_draws (i : Instr) (c : Cause) (a : Word) : (s.faultIn i c a).draws = s.draws := rfl

/-! ## State.skipIf -/

@[simp] theorem State.skipIf_mem (c : Bool) : (s.skipIf c).mem = s.mem := by cases c <;> rfl
@[simp] theorem State.skipIf_v (c : Bool) : (s.skipIf c).v = s.v := by cases c <;> rfl
@[simp] theorem State.skipIf_i (c : Bool) : (s.skipIf c).i = s.i := by cases c <;> rfl
@[simp] theorem State.skipIf_pc (c : Bool) : (s.skipIf c).pc = if c then s.pc + 2 else s.pc := by cases c <;> rfl
@[simp] theorem State.skipIf_stack (c : Bool) : (s.skipIf c).stack = s.stack := by cases c <;> rfl
@[simp] theorem State.skipIf_sp (c : Bool) : (s.skipIf c).sp = s.sp := by cases c <;> rfl
@[simp] theorem State.skipIf_dt (c : Bool) : (s.skipIf c).dt = s.dt := by cases c <;> rfl
@[simp] theorem State.skipIf_st (c : Bool) : (s.skipIf c).st = s.st := by cases c <;> rfl
@[simp] theorem State.skipIf_keys (c : Bool) : (s.skipIf c).keys = s.keys := by cases c <;> rfl
@[simp] theorem State.skipIf_fb (c : Bool) : (s.skipIf c).fb = s.fb := by cases c <;> rfl
@[simp] theorem State.skipIf_needsRender (c : Bool) : (s.skipIf c).needsRender = s.needsRender := by cases c <;> rfl
@[simp] theorem State.skipIf_runState (c : Bool) : (s.skipIf c).runState = s.runState := by cases c <;> rfl
@[simp] theorem State.skipIf_waitReg (c : Bool) : (s.skipIf c).waitReg = s.waitReg := by cases c <;> rfl
@[simp] theorem State.skipIf_fault (c : Bool) : (s.skipIf c).fault = s.fault := by cases c <;> rfl
@[simp] theorem State.skipIf_loaded (c : Bool) : (s.skipIf c).loaded = s.loaded := by cases c <;> rfl
@[simp] theorem State.skipIf_params (c : Bool) : (s.skipIf c).params = s.params := by cases c <;> rfl
@[simp] theorem State.skipIf_draws (c : Bool) : (s.skipIf c).draws = s.draws := by cases c <;> rfl

/-! ## State.beforeFetch and State.advancePc -/

@[simp] theorem State.beforeFetch_mem : s.beforeFetch.mem = s.mem := rfl
@[simp] theorem State.beforeFetch_v : s.beforeFetch.v = s.v := rfl
@[simp] theorem State.beforeFetch_i : s.beforeFetch.i = s.i := rfl
@[simp] theorem State.beforeFetch_pc : s.beforeFetch.pc = s.pc := rfl
@[simp] theorem State.beforeFetch_stack : s.beforeFetch.stack = s.stack := rfl
@[simp] theorem State.beforeFetch_sp : s.beforeFetch.sp = s.sp := rfl
@[simp] theorem State.beforeFetch_dt : s.beforeFetch.dt = decayTimer s.dt := rfl
@[simp] theorem State.beforeFetch_st : s.beforeFetch.st = decayTimer s.st := rfl
@[simp] theorem State.beforeFetch_keys : s.beforeFetch.keys = s.keys := rfl
@[simp] theorem State.beforeFetch_fb : s.beforeFetch.fb = s.fb := rfl
@[simp] theorem State.beforeFetch_needsRender : s.beforeFetch.needsRender = false := rfl
@[simp] theorem State.beforeFetch_runState : s.beforeFetch.runState = s.runState := rfl
@[simp] theorem State.beforeFetch_waitReg : s.beforeFetch.waitReg = s.waitReg := rfl
@[simp] theorem State.beforeFetch_fault : s.beforeFetch.fault = s.fault := rfl
@[simp] theorem State.beforeFetch_loaded : s.beforeFetch.loaded = true := rfl
@[simp] theorem State.beforeFetch_params : s.beforeFetch.params = s.params := rfl
@[simp] theorem State.beforeFetch_draws : s.beforeFetch.draws = s.draws := rfl
@[simp] theorem State.advancePc_mem : s.advancePc.mem = s.mem := rfl
@[simp] theorem State.advancePc_v : s.advancePc.v = s.v := rfl
@[simp] theorem State.advancePc_i : s.advancePc.i = s.i := rfl
@[simp] theorem State.advancePc_pc : s.advancePc.pc = s.pc + 2 := rfl
@[simp] theorem State.advancePc_stack : s.advancePc.stack = s.stack := rfl
@[simp] theorem State.advancePc_sp : s.advancePc.sp = s.sp := rfl
@[simp] theorem State.advancePc_dt : s.advancePc.dt = s.dt := rfl
@[simp] theorem State.advancePc_st : s.advancePc.st = s.st := rfl
@[simp] theorem State.advancePc_keys : s.advancePc.keys = s.keys := rfl
@[simp] theorem State.advancePc_fb : s.advancePc.fb = s.fb := rfl
@[simp] theorem State.advancePc_needsRender : s.advancePc.needsRender = s.needsRender := rfl
@[simp] theorem State.advancePc_runState : s.advancePc.runState = s.runState := rfl
@[simp] theorem State.advancePc_waitReg : s.advancePc.waitReg = s.waitReg := rfl
@[simp] theorem State.advancePc_fault : s.advancePc.fault = s.fault := rfl
@[simp] theorem State.advancePc_loaded : s.advancePc.loaded = s.loaded := rfl
@[simp] theorem State.advancePc_params : s.advancePc.params = s.params := rfl
@[simp] theorem State.advancePc_draws : s.advancePc.draws = s.draws := rfl

end Sys2Proof.Machine
end

