-- ==== Sys2Proof/Laws/Memory.lean ====
section
/-! SUPPORT. Everything the memory operations can do: a read after a write, and the canonical form that every operation
keeps (spec/20_memory.md R51, R53, R59). -/

namespace Sys2Proof.Machine

@[simp] theorem Memory.read_nil (a : Nat) : Memory.read [] a = Memory.background a := rfl

theorem Memory.read_put (m : Memory) (a : Nat) (v : Byte) (b : Nat) :
    (m.put a v).read b = if b = a then v else m.read b := by
  induction m with
  | nil => simp [Memory.put, Memory.read]
  | cons c m ih =>
    obtain ⟨k, w⟩ := c
    simp only [Memory.put]
    split
    · simp [Memory.read]
    · split
      · subst k
        by_cases hb : b = a <;> simp [Memory.read, hb]
      · simp only [Memory.read, ih]
        by_cases hb : b = k
        · subst hb
          simp [show b ≠ a from fun h => by simp_all]
        · simp [hb]

theorem Memory.read_unlist (m : Memory) (a b : Nat) :
    (m.unlist a).read b = if b = a then Memory.background a else m.read b := by
  induction m with
  | nil => by_cases hb : b = a <;> simp [Memory.unlist, Memory.read, hb]
  | cons c m ih =>
    obtain ⟨k, w⟩ := c
    simp only [Memory.unlist] at ih
    by_cases hk : k = a
    · subst k
      by_cases hb : b = a <;> simp_all [Memory.unlist, Memory.read]
    · by_cases hb : b = k
      · subst hb
        simp [Memory.unlist, Memory.read, hk]
      · simp [Memory.unlist, Memory.read, hk, hb, ih]

/-- Read after write: the byte written at its own address, every other byte as before; an address above 0xFFF is not
written. -/
theorem Memory.read_write (m : Memory) (a : Nat) (v : Byte) (b : Nat) :
    (m.write a v).read b = if b = a ∧ a < Config.memSize then v else m.read b := by
  unfold Memory.write
  split
  · split
    · subst v
      simp [Memory.read_unlist, *]
    · simp [Memory.read_put, *]
  · simp [*]

theorem Memory.mem_put {m : Memory} {a : Nat} {v : Byte} {c : Host.Cell} (h : c ∈ m.put a v) :
    c = (a, v) ∨ c ∈ m := by
  induction m with
  | nil => simpa [Memory.put] using h
  | cons d m ih =>
    obtain ⟨k, w⟩ := d
    simp only [Memory.put] at h
    split at h
    · simpa using h
    · split at h
      · rcases List.mem_cons.mp h with h | h
        · exact .inl h
        · exact .inr (List.mem_cons_of_mem _ h)
      · rcases List.mem_cons.mp h with h | h
        · exact .inr (h ▸ List.mem_cons_self)
        · exact (ih h).imp id (List.mem_cons_of_mem _)

theorem Memory.rising_put {m : Memory} (a : Nat) (v : Byte) (h : m.Pairwise (fun c d => c.1 < d.1)) :
    (m.put a v).Pairwise (fun c d => c.1 < d.1) := by
  induction m with
  | nil => simp [Memory.put]
  | cons d m ih =>
    obtain ⟨k, w⟩ := d
    obtain ⟨hd, hm⟩ := List.pairwise_cons.mp h
    simp only [Memory.put]
    split
    · next hlt =>
      refine List.pairwise_cons.mpr ⟨fun c hc => ?_, h⟩
      rcases List.mem_cons.mp hc with rfl | hc
      · exact hlt
      · exact Nat.lt_trans hlt (hd c hc)
    · split
      · next heq =>
        subst heq
        exact List.pairwise_cons.mpr ⟨hd, hm⟩
      · refine List.pairwise_cons.mpr ⟨fun c hc => ?_, ih hm⟩
        rcases Memory.mem_put hc with rfl | hc
        · show k < a
          omega
        · exact hd c hc

/-- Every write keeps the canonical form. -/
theorem Memory.wf_write {m : Memory} (a : Nat) (v : Byte) (h : m.wf) : (m.write a v).wf := by
  unfold Memory.write
  split
  · next ha =>
    split
    · exact ⟨h.1.filter _, fun c hc => h.2 c (List.mem_of_mem_filter hc)⟩
    · next hv =>
      refine ⟨Memory.rising_put a v h.1, fun c hc => ?_⟩
      rcases Memory.mem_put hc with rfl | hc
      · exact ⟨ha, hv⟩
      · exact h.2 c hc
  · exact h

/-- A read after a write of several bytes that lie in memory. -/
theorem Memory.read_writeBytes (m : Memory) (a : Nat) (bs : List Byte) (h : a + bs.length ≤ Config.memSize) (b : Nat) :
    (m.writeBytes a bs).read b = if a ≤ b ∧ b < a + bs.length then bs.getD (b - a) 0 else m.read b := by
  induction bs generalizing m a with
  | nil =>
    simp only [Memory.writeBytes, List.length_nil, Nat.add_zero]
    rw [if_neg (by omega)]
  | cons v bs ih =>
    simp only [List.length_cons] at h
    simp only [Memory.writeBytes, List.length_cons]
    rw [ih _ _ (by omega), Memory.read_write]
    by_cases hb : b = a
    · subst hb
      rw [if_neg (by omega), if_pos ⟨rfl, by omega⟩, if_pos (by omega)]
      simp
    · by_cases hin : a ≤ b ∧ b < a + (bs.length + 1)
      · rw [if_pos (by omega), if_pos hin, show b - a = (b - (a + 1)) + 1 by omega]
        rfl
      · rw [if_neg (by omega), if_neg (by simp [hb]), if_neg hin]

/-- Writing several bytes keeps the canonical form. -/
theorem Memory.wf_writeBytes {m : Memory} (a : Nat) (bs : List Byte) (h : m.wf) : (m.writeBytes a bs).wf := by
  induction bs generalizing m a with
  | nil => exact h
  | cons v bs ih => exact ih _ (Memory.wf_write a v h)

/-- Reset memory is in canonical form. -/
theorem State.reset_mem_wf : State.reset.mem.wf := by decide

theorem accessOk_iff (a n : Nat) : accessOk a n = true ↔ n = 0 ∨ a + n ≤ Config.memSize := by
  simp [accessOk]

/-- MemRead of n bytes: all of them, or nothing when one address lies above 0xFFF. -/
theorem State.loadBytes_cases (s : State) (a n : Nat) :
    (accessOk a n = true ∧ s.loadBytes a n = some ((List.range n).map (fun k => s.mem.read (a + k)))) ∨
    (accessOk a n = false ∧ s.loadBytes a n = none) := by
  cases h : accessOk a n <;> simp [State.loadBytes, h]

/-- MemWrite of the bytes: all of them and nothing else, or nothing when one address lies above 0xFFF. -/
theorem State.storeBytes_cases (s : State) (a : Nat) (bs : List Byte) :
    (accessOk a bs.length = true ∧ s.storeBytes a bs = some (s.setMem (s.mem.writeBytes a bs))) ∨
    (accessOk a bs.length = false ∧ s.storeBytes a bs = none) := by
  cases h : accessOk a bs.length <;> simp [State.storeBytes, h]

end Sys2Proof.Machine
end

