-- ==== Sys2Proof/Laws/Ops.lean ====
section
/-! SUPPORT. Everything each shared operation over registers, keys, the stack and the framebuffer can do. -/

namespace Sys2Proof.Machine

theorem State.reg_setReg (s : State) (x : Reg) (b : Byte) (r : Reg) :
    (s.setReg x b).reg r = if r = x then b else s.reg r := by
  by_cases h : r = x
  · subst h
    simp [State.reg]
  · have hne : ¬ x.toNat = r.toNat := fun e => h (BitVec.eq_of_toNat_eq e.symm)
    simp [State.reg, h, hne]

/-- VX gets the result and VF the flag; with X = F the flag is what remains (R152 (b)). -/
theorem State.reg_setResultAndFlag (s : State) (x : Reg) (b c : Byte) (r : Reg) :
    (s.setResultAndFlag x b c).reg r = if r = 0xF then c else if r = x then b else s.reg r := by
  simp only [State.setResultAndFlag, State.reg_setReg]

theorem State.key_setKey (s : State) (k : Reg) (b : Bool) (j : Reg) :
    (s.setKey k b).key j = if j = k then b else s.key j := by
  by_cases h : j = k
  · subst h
    simp [State.key]
  · have hne : ¬ k.toNat = j.toNat := fun e => h (BitVec.eq_of_toNat_eq e.symm)
    simp [State.key, h, hne]

/-- A push below the limit stores the address and raises SP by one; at SP = 16 there is none (R26). -/
theorem State.push_cases (s : State) (a : Word) :
    (∃ h : s.sp.val < 16,
      s.push a = some (s.setStack (s.stack.set s.sp.val a h) ⟨s.sp.val + 1, by omega⟩)) ∨
    (s.sp = 16 ∧ s.push a = none) := by
  by_cases h : s.sp.val < 16
  · exact .inl ⟨h, by simp [State.push, h]⟩
  · exact .inr ⟨Fin.ext (by have := s.sp.isLt; show s.sp.val = 16; omega), by simp [State.push, h]⟩

/-- A pop above 0 gives the entry below SP and lowers SP by one; at SP = 0 there is none (R26). -/
theorem State.pop_cases (s : State) :
    (∃ h : 0 < s.sp.val,
      s.pop = some (s.stack[s.sp.val - 1]'(by omega), s.setStack s.stack ⟨s.sp.val - 1, by omega⟩)) ∨
    (s.sp = 0 ∧ s.pop = none) := by
  by_cases h : 0 < s.sp.val
  · exact .inl ⟨h, by simp [State.pop, h]⟩
  · exact .inr ⟨Fin.ext (by show s.sp.val = 0; omega), by simp [State.pop, h]⟩

theorem writeRegs_getElem (v : Vector Byte 16) (k : Nat) (bs : List Byte) (j : Nat) (hj : j < 16) :
    (writeRegs v k bs)[j] = if k ≤ j ∧ j < k + bs.length then bs.getD (j - k) 0 else v[j] := by
  induction bs generalizing v k with
  | nil =>
    simp only [writeRegs, List.length_nil, Nat.add_zero]
    rw [if_neg (by omega)]
  | cons b bs ih =>
    simp only [writeRegs, ih, List.length_cons, Vector.getElem_setIfInBounds]
    by_cases hjk : j = k
    · subst hjk
      rw [if_neg (by omega), if_pos rfl, if_pos (by omega)]
      simp
    · by_cases hin : k ≤ j ∧ j < k + (bs.length + 1)
      · rw [if_pos (by omega), if_pos hin, show j - k = (j - (k + 1)) + 1 by omega]
        rfl
      · rw [if_neg (by omega), if_neg (by omega), if_neg hin]

theorem State.length_regsUpTo (s : State) (x : Reg) : (s.regsUpTo x).length = x.toNat + 1 := by
  have := x.isLt
  simp [State.regsUpTo]
  omega

theorem Framebuffer.pixel_flip (f : Framebuffer) (p q : Point) :
    (f.flip p).pixel q = (f.pixel q != decide (q = p)) := by
  obtain ⟨px, py⟩ := p
  obtain ⟨qx, qy⟩ := q
  by_cases hx : qx = px
  · subst hx
    by_cases hy : qy = py
    · subst hy
      simp [Framebuffer.flip, Framebuffer.pixel]
    · have : ¬ py.val = qy.val := fun e => hy (Fin.ext e.symm)
      simp [Framebuffer.flip, Framebuffer.pixel, hy, this]
  · have : ¬ px.val = qx.val := fun e => hx (Fin.ext e.symm)
    simp [Framebuffer.flip, Framebuffer.pixel, hx, this]

theorem Framebuffer.pixel_blank (p : Point) : Framebuffer.blank.pixel p = false := by
  simp [Framebuffer.blank, Framebuffer.pixel]

/-- Two framebuffers with the same pixels are equal. -/
theorem Framebuffer.ext_pixel {f g : Framebuffer} (h : ∀ p, f.pixel p = g.pixel p) : f = g := by
  refine Vector.ext fun x hx => Vector.ext fun y hy => ?_
  exact h (⟨x, hx⟩, ⟨y, hy⟩)

end Sys2Proof.Machine
end

