-- ==== Sys2Proof/Laws/Draw.lean ====
section
/-! SUPPORT. Everything the drawing engine can do (spec/43_families_A-D.md R173): which pixels a sprite touches, that it
touches none twice, what each pixel is afterwards, and when there is a collision. -/

namespace Sys2Proof.Machine

theorem mem_rowPoints {width x0 y : Nat} {b : Byte} {p : Point} :
    p ∈ rowPoints width x0 y b ↔
      ∃ c < width, b.getLsbD (7 - c) = true ∧ p = (Fin.ofNat 64 (x0 + c), Fin.ofNat 32 y) := by
  simp only [rowPoints, List.mem_map, List.mem_filter, List.mem_range]
  constructor
  · rintro ⟨c, ⟨hc, hb⟩, rfl⟩
    exact ⟨c, hc, hb, rfl⟩
  · rintro ⟨c, hc, hb, rfl⟩
    exact ⟨c, ⟨hc, hb⟩, rfl⟩

/-- The pixels a sprite touches: row r, column c, where the bit of that column is set. -/
theorem mem_spritePoints {width x0 y0 : Nat} {bytes : List Byte} {p : Point} :
    p ∈ spritePoints width x0 y0 bytes ↔
      ∃ r < bytes.length, ∃ c < width, (bytes.getD r 0).getLsbD (7 - c) = true ∧
        p = (Fin.ofNat 64 (x0 + c), Fin.ofNat 32 (y0 + r)) := by
  induction bytes generalizing y0 with
  | nil => simp [spritePoints]
  | cons b bs ih =>
    simp only [spritePoints, List.mem_append, mem_rowPoints, ih, List.length_cons]
    constructor
    · rintro (⟨c, hc, hb, rfl⟩ | ⟨r, hr, c, hc, hb, rfl⟩)
      · exact ⟨0, by omega, c, hc, by simpa using hb, rfl⟩
      · exact ⟨r + 1, by omega, c, hc, by simpa using hb, by rw [show y0 + (r + 1) = y0 + 1 + r by omega]⟩
    · rintro ⟨r, hr, c, hc, hb, rfl⟩
      cases r with
      | zero => exact .inl ⟨c, hc, by simpa using hb, rfl⟩
      | succ r =>
        exact .inr ⟨r, by omega, c, hc, by simpa using hb, by rw [show y0 + (r + 1) = y0 + 1 + r by omega]⟩

theorem nodup_rowPoints {width : Nat} (hw : width ≤ 64) (x0 y : Nat) (b : Byte) : (rowPoints width x0 y b).Nodup := by
  refine List.Nodup.map_on (fun c hc d hd h => ?_) (List.nodup_range.filter _)
  have hc := (List.mem_filter.mp hc).1
  have hd := (List.mem_filter.mp hd).1
  rw [List.mem_range] at hc hd
  have h := congrArg (fun q : Point => q.1.val) h
  simp only [Fin.ofNat] at h
  omega

/-- No pixel is visited twice within one DRW (R173). -/
theorem nodup_spritePoints {width : Nat} (hw : width ≤ 64) (x0 y0 : Nat) (bytes : List Byte) (hl : bytes.length ≤ 32) :
    (spritePoints width x0 y0 bytes).Nodup := by
  induction bytes generalizing y0 with
  | nil => simp [spritePoints]
  | cons b bs ih =>
    simp only [List.length_cons] at hl
    refine List.Nodup.append (nodup_rowPoints hw x0 y0 b) (ih (y0 + 1) (by omega)) ?_
    intro p hp hq
    obtain ⟨c, -, -, rfl⟩ := mem_rowPoints.mp hp
    obtain ⟨r, hr, d, -, -, h⟩ := mem_spritePoints.mp hq
    have h := congrArg (fun q : Point => q.2.val) h
    simp only [Fin.ofNat] at h
    omega

/-- What a run over distinct pixels leaves: each of them flipped, and a collision if one of them was lit. -/
theorem foldl_plot {ps : List Point} (hn : ps.Nodup) (f : Framebuffer) (c : Bool) :
    (∀ q, (ps.foldl plot (f, c)).1.pixel q = (f.pixel q != decide (q ∈ ps))) ∧
    ((ps.foldl plot (f, c)).2 = true ↔ c = true ∨ ∃ p ∈ ps, f.pixel p = true) := by
  induction ps generalizing f c with
  | nil => simp
  | cons p ps ih =>
    obtain ⟨hp, hn⟩ := List.nodup_cons.mp hn
    obtain ⟨ih1, ih2⟩ := ih hn (f.flip p) (c || f.pixel p)
    refine ⟨fun q => ?_, ?_⟩
    · rw [List.foldl_cons, plot, ih1, Framebuffer.pixel_flip]
      by_cases hq : q = p
      · subst hq
        simp [hp]
      · simp [hq]
    · rw [List.foldl_cons, plot, ih2]
      have key : (∃ q ∈ ps, (f.flip p).pixel q = true) ↔ ∃ q ∈ ps, f.pixel q = true := by
        refine exists_congr fun q => and_congr_right fun hq => ?_
        rw [Framebuffer.pixel_flip, decide_eq_false (fun e : q = p => hp (e ▸ hq))]
        simp
      rw [key]
      simp [or_assoc]

/-- The columns drawn are at most a byte's. -/
theorem spriteWidth_le (p : Params) : spriteWidth p ≤ 8 := by
  unfold spriteWidth
  split <;> omega

end Sys2Proof.Machine
end

