-- ==== Sys2Proof/Laws/Exec.lean ====
section
/-! SUPPORT. What each meaning can do, once: for an instruction with one outcome its next state, for an instruction that
can fault the two cases. Later proofs cite these instead of unfolding a meaning. -/

namespace Sys2Proof.Machine

/-! ## The frames of the shared updates -/

theorem OnlyRegsChange.setReg (s : State) (x : Reg) (b : Byte) : OnlyRegsChange s (s.setReg x b) := ⟨rfl, fun _ => rfl⟩

theorem OnlyRegsChange.setResultAndFlag (s : State) (x : Reg) (b c : Byte) :
    OnlyRegsChange s (s.setResultAndFlag x b c) := ⟨rfl, fun _ => rfl⟩

theorem OnlyPcChanges.setPc (s : State) (a : Word) : OnlyPcChanges s (s.setPc a) := ⟨rfl, fun _ => rfl⟩

theorem OnlyPcChanges.skipIf (s : State) (c : Bool) : OnlyPcChanges s (s.skipIf c) := by
  cases c
  · exact ⟨rfl, fun _ => rfl⟩
  · exact OnlyPcChanges.setPc s (s.pc + 2)

theorem FaultsWith.faultIn (s : State) (i : Instr) (c : Cause) (a : Word) :
    FaultsWith s (s.faultIn i c a) c (s.pc - 2) (encode i) a := rfl

/-! ## Instructions with one outcome -/

theorem exec_cls (s : State) :
    exec .cls s = .next ((s.setFb Framebuffer.blank).setNeedsRender (s.needsRender || s.params.clsSetsDirty)) := rfl

theorem exec_jp (nnn : Addr12) (s : State) : exec (.jp nnn) s = .next (s.setPc (zextAddr nnn)) := rfl

theorem exec_seImm (x : Reg) (nn : Byte) (s : State) : exec (.seImm x nn) s = .next (s.skipIf (s.reg x == nn)) := rfl

theorem exec_sneImm (x : Reg) (nn : Byte) (s : State) : exec (.sneImm x nn) s = .next (s.skipIf (s.reg x != nn)) := rfl

theorem exec_seReg (x y : Reg) (s : State) : exec (.seReg x y) s = .next (s.skipIf (s.reg x == s.reg y)) := rfl

theorem exec_sneReg (x y : Reg) (s : State) : exec (.sneReg x y) s = .next (s.skipIf (s.reg x != s.reg y)) := rfl

theorem exec_ldImm (x : Reg) (nn : Byte) (s : State) : exec (.ldImm x nn) s = .next (s.setReg x nn) := rfl

theorem exec_addImm (x : Reg) (nn : Byte) (s : State) :
    exec (.addImm x nn) s = .next (s.setReg x (addResult (s.reg x) nn)) := rfl

theorem exec_ldReg (x y : Reg) (s : State) : exec (.ldReg x y) s = .next (s.setReg x (s.reg y)) := rfl

theorem exec_orReg (x y : Reg) (s : State) : exec (.orReg x y) s = .next (s.setReg x (s.reg x ||| s.reg y)) := rfl

theorem exec_andReg (x y : Reg) (s : State) : exec (.andReg x y) s = .next (s.setReg x (s.reg x &&& s.reg y)) := rfl

theorem exec_xorReg (x y : Reg) (s : State) : exec (.xorReg x y) s = .next (s.setReg x (s.reg x ^^^ s.reg y)) := rfl

theorem exec_addReg (x y : Reg) (s : State) :
    exec (.addReg x y) s =
      .next (s.setResultAndFlag x (addResult (s.reg x) (s.reg y)) (carryFlag (s.reg x) (s.reg y))) := rfl

theorem exec_sub (x y : Reg) (s : State) :
    exec (.sub x y) s =
      .next (s.setResultAndFlag x (subResult (s.reg x) (s.reg y)) (borrowFlag s.params (s.reg x) (s.reg y))) := rfl

theorem exec_shr (x y : Reg) (s : State) :
    exec (.shr x y) s =
      .next (s.setResultAndFlag x (shrResult (shiftOperand s x y)) (shrFlag (shiftOperand s x y))) := rfl

theorem exec_shl (x y : Reg) (s : State) :
    exec (.shl x y) s =
      .next (s.setResultAndFlag x (shlResult (shiftOperand s x y)) (shlFlag s.params (shiftOperand s x y))) := rfl

theorem exec_ldI (nnn : Addr12) (s : State) : exec (.ldI nnn) s = .next (s.setI (zextAddr nnn)) := rfl

theorem exec_rnd (x : Reg) (nn : Byte) (s : State) :
    exec (.rnd x nn) s = .next ((s.setDraws (s.draws + 1)).setReg x (nn &&& Config.randByte s.draws)) := rfl

theorem exec_ldVxDt (x : Reg) (s : State) : exec (.ldVxDt x) s = .next (s.setReg x s.dt) := rfl

theorem exec_ldVxK (x : Reg) (s : State) :
    exec (.ldVxK x) s = .next ((s.setWaitReg x).setRunState .awaitingKey) := rfl

theorem exec_ldDtVx (x : Reg) (s : State) : exec (.ldDtVx x) s = .next (s.setDt (s.reg x)) := rfl

theorem exec_ldStVx (x : Reg) (s : State) : exec (.ldStVx x) s = .next (s.setSt (s.reg x)) := rfl

theorem exec_addIVx (x : Reg) (s : State) : exec (.addIVx x) s = .next (s.setI (indexSum s.i (s.reg x))) := rfl

theorem exec_ldFVx (x : Reg) (s : State) : exec (.ldFVx x) s = .next (s.setI (glyphAddress (s.reg x))) := rfl

/-! ## Instructions that can fault -/

theorem exec_ret_cases (s : State) :
    (∃ h : 0 < s.sp.val, exec .ret s = .next
      ((s.setStack s.stack ⟨s.sp.val - 1, by omega⟩).setPc (s.stack[s.sp.val - 1]'(by omega)))) ∨
    (s.sp = 0 ∧ exec .ret s = .next (s.faultIn .ret .stackUnderflow 0)) := by
  rcases s.pop_cases with ⟨h, e⟩ | ⟨h, e⟩
  · exact .inl ⟨h, by simp only [exec, execRet, e]⟩
  · exact .inr ⟨h, by simp only [exec, execRet, e]⟩

theorem exec_call_cases (nnn : Addr12) (s : State) :
    (∃ h : s.sp.val < 16, exec (.call nnn) s = .next
      ((s.setStack (s.stack.set s.sp.val s.pc h) ⟨s.sp.val + 1, by omega⟩).setPc (zextAddr nnn))) ∨
    (s.sp = 16 ∧ exec (.call nnn) s = .next (s.faultIn (.call nnn) .stackOverflow 0)) := by
  rcases s.push_cases s.pc with ⟨h, e⟩ | ⟨h, e⟩
  · exact .inl ⟨h, by simp only [exec, execCall, e]⟩
  · exact .inr ⟨h, by simp only [exec, execCall, e]⟩

theorem skipOnKey_cases (i : Instr) (x : Reg) (b : Bool) (s : State) :
    ((s.reg x).toNat ≤ 0x0F ∧
      skipOnKey i x b s = .next (s.skipIf (s.key ((s.reg x).setWidth 4) == b))) ∨
    ((s.reg x).toNat > 0x0F ∧ skipOnKey i x b s = .next (s.faultIn i .address (zext16 (s.reg x)))) := by
  unfold skipOnKey
  split
  · next h => exact .inr ⟨h, rfl⟩
  · next h => exact .inl ⟨by omega, rfl⟩

theorem exec_skp (x : Reg) (s : State) : exec (.skp x) s = skipOnKey (.skp x) x true s := rfl

theorem exec_sknp (x : Reg) (s : State) : exec (.sknp x) s = skipOnKey (.sknp x) x false s := rfl

theorem storeAtI_cases (i : Instr) (bytes : List Byte) (s : State) :
    (accessOk s.i.toNat bytes.length = true ∧
      storeAtI i bytes s = .next (s.setMem (s.mem.writeBytes s.i.toNat bytes))) ∨
    (accessOk s.i.toNat bytes.length = false ∧
      storeAtI i bytes s = .next (s.faultIn i .address (firstOutOfRange s.i.toNat))) := by
  rcases s.storeBytes_cases s.i.toNat bytes with ⟨h, e⟩ | ⟨h, e⟩
  · exact .inl ⟨h, by simp only [storeAtI, e]⟩
  · exact .inr ⟨h, by simp only [storeAtI, e]⟩

theorem exec_ldBVx (x : Reg) (s : State) :
    exec (.ldBVx x) s = storeAtI (.ldBVx x) (decimalDigits (s.reg x)) s := rfl

theorem exec_ldMemVx (x : Reg) (s : State) : exec (.ldMemVx x) s = storeAtI (.ldMemVx x) (s.regsUpTo x) s := rfl

theorem exec_ldVxMem_cases (x : Reg) (s : State) :
    (accessOk s.i.toNat (x.toNat + 1) = true ∧ exec (.ldVxMem x) s = .next
      (s.setV (writeRegs s.v 0 ((List.range (x.toNat + 1)).map (fun k => s.mem.read (s.i.toNat + k)))))) ∨
    (accessOk s.i.toNat (x.toNat + 1) = false ∧ exec (.ldVxMem x) s =
      .next (s.faultIn (.ldVxMem x) .address (firstOutOfRange s.i.toNat))) := by
  rcases s.loadBytes_cases s.i.toNat (x.toNat + 1) with ⟨h, e⟩ | ⟨h, e⟩
  · exact .inl ⟨h, by simp only [exec, execLdVxMem, e]⟩
  · exact .inr ⟨h, by simp only [exec, execLdVxMem, e]⟩

/-- The drawing of a DRW that does not fault: the framebuffer and the collision. -/
def drwOutcome (x y : Reg) (n : BitVec 4) (s : State) : Framebuffer × Bool :=
  drawSprite s.fb (spriteWidth s.params) (s.reg x).toNat (s.reg y).toNat
    ((List.range n.toNat).map (fun k => s.mem.read (s.i.toNat + k)))

theorem exec_drw_cases (x y : Reg) (n : BitVec 4) (s : State) :
    (accessOk s.i.toNat n.toNat = true ∧ exec (.drw x y n) s = .next
      (((s.setFb (drwOutcome x y n s).1).setNeedsRender (s.needsRender || n != 0)).setReg 0xF
        (collisionFlag (drwOutcome x y n s).2))) ∨
    (accessOk s.i.toNat n.toNat = false ∧ exec (.drw x y n) s =
      .next (s.faultIn (.drw x y n) .address (firstOutOfRange s.i.toNat))) := by
  rcases s.loadBytes_cases s.i.toNat n.toNat with ⟨h, e⟩ | ⟨h, e⟩
  · exact .inl ⟨h, by simp only [exec, execDrw, e, drwOutcome]⟩
  · exact .inr ⟨h, by simp only [exec, execDrw, e]⟩

/-- What a DRW that does not fault does to the pixels: those of the sprite are flipped, the others kept; and there is a
collision exactly when one of them was lit. -/
theorem drwOutcome_spec (x y : Reg) (n : BitVec 4) (s : State) :
    (∀ q, (drwOutcome x y n s).1.pixel q =
      (s.fb.pixel q != decide (q ∈ spritePoints (spriteWidth s.params) (s.reg x).toNat (s.reg y).toNat
        ((List.range n.toNat).map (fun k => s.mem.read (s.i.toNat + k)))))) ∧
    ((drwOutcome x y n s).2 = true ↔
      ∃ p ∈ spritePoints (spriteWidth s.params) (s.reg x).toNat (s.reg y).toNat
        ((List.range n.toNat).map (fun k => s.mem.read (s.i.toNat + k))), s.fb.pixel p = true) := by
  have hn := n.isLt
  have hw := spriteWidth_le s.params
  have := foldl_plot (nodup_spritePoints (by omega) (s.reg x).toNat (s.reg y).toNat
    ((List.range n.toNat).map (fun k => s.mem.read (s.i.toNat + k)))
    (by rw [List.length_map, List.length_range]; omega) (width := spriteWidth s.params)) s.fb false
  simpa [drwOutcome, drawSprite] using this

end Sys2Proof.Machine
end

