-- ==== Sys2Proof/Laws/Cycle.lean ====
section
/-! SUPPORT. What one Step can do, once: the inversion of `step` (spec/40_cycle.md R100). -/

namespace Sys2Proof.Machine

theorem State.fetchWord_cases (s : State) :
    (s.pc.toNat + 1 ≤ 0xFFF ∧
      s.fetchWord = some (wordOfBytes (s.mem.read s.pc.toNat) (s.mem.read (s.pc.toNat + 1)))) ∨
    (0xFFF < s.pc.toNat + 1 ∧ s.fetchWord = none) := by
  by_cases h : s.pc.toNat + 1 ≤ 0xFFF
  · refine .inl ⟨h, ?_⟩
    rw [State.fetchWord, if_pos ((accessOk_iff _ _).mpr (.inr (by unfold Config.memSize; omega)))]
  · refine .inr ⟨by omega, ?_⟩
    rw [State.fetchWord, if_neg]
    rw [accessOk_iff]
    unfold Config.memSize
    omega

/-- The four ways a Step goes: outside Running; a word that cannot be fetched; an illegal word; an instruction. -/
theorem step_cases (s : State) :
    (s.runState ≠ .running ∧ step s = .next (s.setLoaded true)) ∨
    (s.runState = .running ∧ 0xFFF < s.pc.toNat + 1 ∧
      step s = .next (s.beforeFetch.raiseFault .address s.pc 0 (firstOutOfRange s.pc.toNat))) ∨
    (∃ w e, s.runState = .running ∧ s.pc.toNat + 1 ≤ 0xFFF ∧
      w = wordOfBytes (s.mem.read s.pc.toNat) (s.mem.read (s.pc.toNat + 1)) ∧ decode w = .error e ∧
      step s = .next (s.beforeFetch.advancePc.raiseFault .decode s.pc w 0)) ∨
    (∃ w i, s.runState = .running ∧ s.pc.toNat + 1 ≤ 0xFFF ∧
      w = wordOfBytes (s.mem.read s.pc.toNat) (s.mem.read (s.pc.toNat + 1)) ∧ decode w = .ok i ∧
      step s = exec i s.beforeFetch.advancePc) := by
  cases hr : s.runState with
  | awaitingKey => exact .inl ⟨nofun, by simp only [step, beginStep, hr]⟩
  | faulted => exact .inl ⟨nofun, by simp only [step, beginStep, hr]⟩
  | running =>
    refine .inr ?_
    rcases s.beforeFetch.fetchWord_cases with ⟨h, e⟩ | ⟨h, e⟩
    · refine .inr ?_
      simp only [State.beforeFetch_pc, State.beforeFetch_mem] at h e
      cases hd : decode (wordOfBytes (s.mem.read s.pc.toNat) (s.mem.read (s.pc.toNat + 1))) with
      | error d =>
        exact .inl ⟨_, d, rfl, h, rfl, hd, by simp only [step, beginStep, hr, fetchDecode, e, hd, State.beforeFetch_pc]⟩
      | ok i =>
        exact .inr ⟨_, i, rfl, h, rfl, hd, by simp only [step, beginStep, hr, fetchDecode, e, hd]⟩
    · exact .inl ⟨rfl, h, by simp only [step, beginStep, hr, fetchDecode, e, State.beforeFetch_pc]⟩

/-- What a Step executes: nothing if the word cannot be fetched, else what the word decodes to, if anything. -/
theorem State.nextInstr_cases (s : State) :
    (0xFFF < s.pc.toNat + 1 ∧ s.nextInstr = none) ∨
    (∃ e, s.pc.toNat + 1 ≤ 0xFFF ∧
      decode (wordOfBytes (s.mem.read s.pc.toNat) (s.mem.read (s.pc.toNat + 1))) = .error e ∧ s.nextInstr = none) ∨
    (∃ i, s.pc.toNat + 1 ≤ 0xFFF ∧
      decode (wordOfBytes (s.mem.read s.pc.toNat) (s.mem.read (s.pc.toNat + 1))) = .ok i ∧ s.nextInstr = some i) := by
  rcases s.fetchWord_cases with ⟨h, e⟩ | ⟨h, e⟩
  · refine .inr ?_
    cases hd : decode (wordOfBytes (s.mem.read s.pc.toNat) (s.mem.read (s.pc.toNat + 1))) with
    | error d => exact .inl ⟨d, h, rfl, by simp only [State.nextInstr, e, hd]⟩
    | ok i => exact .inr ⟨i, h, rfl, by simp only [State.nextInstr, e, hd]⟩
  · exact .inl ⟨h, by simp only [State.nextInstr, e]⟩

/-- A timer's decay, as a number: one less, and never below 0 (R103). -/
theorem decayTimer_toNat (t : Byte) : (decayTimer t).toNat = t.toNat - 1 := by
  unfold decayTimer
  split
  · next h =>
    subst h
    rfl
  · next h =>
    have : t.toNat ≠ 0 := fun e => h (BitVec.eq_of_toNat_eq e)
    have := t.isLt
    rw [BitVec.toNat_sub]
    simp
    omega

end Sys2Proof.Machine
end

