-- ==== Sys2Proof/Laws/Decode.lean ====
section
/-! SUPPORT. The fields of a word laid out as in spec/30_encoding.md R82, and a word put together again from its
fields. -/

namespace Sys2Proof

theorem famOf_toNat (w : Word) : (famOf w).toNat = w.toNat / 4096 := by
  have := w.isLt
  simp [famOf, BitVec.extractLsb'_toNat, Nat.shiftRight_eq_div_pow]
  omega

theorem xOf_toNat (w : Word) : (xOf w).toNat = w.toNat / 256 % 16 := by
  simp [xOf, BitVec.extractLsb'_toNat, Nat.shiftRight_eq_div_pow]

theorem yOf_toNat (w : Word) : (yOf w).toNat = w.toNat / 16 % 16 := by
  simp [yOf, BitVec.extractLsb'_toNat, Nat.shiftRight_eq_div_pow]

theorem nOf_toNat (w : Word) : (nOf w).toNat = w.toNat % 16 := by
  simp [nOf, BitVec.extractLsb'_toNat]

theorem nnOf_toNat (w : Word) : (nnOf w).toNat = w.toNat % 256 := by
  simp [nnOf, BitVec.extractLsb'_toNat]

theorem nnnOf_toNat (w : Word) : (nnnOf w).toNat = w.toNat % 4096 := by
  simp [nnnOf, BitVec.extractLsb'_toNat]

theorem append_toNat {a b : Nat} (p : BitVec a) (q : BitVec b) : (p ++ q).toNat = p.toNat * 2 ^ b + q.toNat := by
  rw [BitVec.toNat_append, ← Nat.shiftLeft_add_eq_or_of_lt q.isLt, Nat.shiftLeft_eq]

/-! ## The layout F NNN -/

theorem famOf_addr (f : BitVec 4) (a : Addr12) : famOf (f ++ a : BitVec (4 + 12)) = f := by
  apply BitVec.eq_of_toNat_eq
  have := a.isLt
  simp only [famOf_toNat, append_toNat]
  omega

theorem nnnOf_addr (f : BitVec 4) (a : Addr12) : nnnOf (f ++ a : BitVec (4 + 12)) = a := by
  apply BitVec.eq_of_toNat_eq
  have := a.isLt
  simp only [nnnOf_toNat, append_toNat]
  omega

/-! ## The layouts F X NN -/

theorem famOf_imm (f x : BitVec 4) (nn : Byte) : famOf (f ++ x ++ nn : BitVec (4 + 4 + 8)) = f := by
  apply BitVec.eq_of_toNat_eq
  have := x.isLt
  have := nn.isLt
  simp only [famOf_toNat, append_toNat]
  omega

theorem xOf_imm (f x : BitVec 4) (nn : Byte) : xOf (f ++ x ++ nn : BitVec (4 + 4 + 8)) = x := by
  apply BitVec.eq_of_toNat_eq
  have := x.isLt
  have := nn.isLt
  simp only [xOf_toNat, append_toNat]
  omega

theorem nnOf_imm (f x : BitVec 4) (nn : Byte) : nnOf (f ++ x ++ nn : BitVec (4 + 4 + 8)) = nn := by
  apply BitVec.eq_of_toNat_eq
  have := nn.isLt
  simp only [nnOf_toNat, append_toNat]
  omega

/-! ## The layout F X Y N -/

theorem famOf_reg (f x y n : BitVec 4) : famOf (f ++ x ++ y ++ n : BitVec (4 + 4 + 4 + 4)) = f := by
  apply BitVec.eq_of_toNat_eq
  have := x.isLt
  have := y.isLt
  have := n.isLt
  simp only [famOf_toNat, append_toNat]
  omega

theorem xOf_reg (f x y n : BitVec 4) : xOf (f ++ x ++ y ++ n : BitVec (4 + 4 + 4 + 4)) = x := by
  apply BitVec.eq_of_toNat_eq
  have := x.isLt
  have := y.isLt
  have := n.isLt
  simp only [xOf_toNat, append_toNat]
  omega

theorem yOf_reg (f x y n : BitVec 4) : yOf (f ++ x ++ y ++ n : BitVec (4 + 4 + 4 + 4)) = y := by
  apply BitVec.eq_of_toNat_eq
  have := y.isLt
  have := n.isLt
  simp only [yOf_toNat, append_toNat]
  omega

theorem nOf_reg (f x y n : BitVec 4) : nOf (f ++ x ++ y ++ n : BitVec (4 + 4 + 4 + 4)) = n := by
  apply BitVec.eq_of_toNat_eq
  have := n.isLt
  simp only [nOf_toNat, append_toNat]
  omega

/-! ## A word is its fields -/

theorem word_eq_addr (w : Word) : (famOf w ++ nnnOf w : BitVec (4 + 12)) = w := by
  apply BitVec.eq_of_toNat_eq
  have := w.isLt
  simp only [append_toNat, famOf_toNat, nnnOf_toNat]
  omega

theorem word_eq_imm (w : Word) : (famOf w ++ xOf w ++ nnOf w : BitVec (4 + 4 + 8)) = w := by
  apply BitVec.eq_of_toNat_eq
  have := w.isLt
  simp only [append_toNat, famOf_toNat, xOf_toNat, nnOf_toNat]
  omega

theorem word_eq_reg (w : Word) : (famOf w ++ xOf w ++ yOf w ++ nOf w : BitVec (4 + 4 + 4 + 4)) = w := by
  apply BitVec.eq_of_toNat_eq
  have := w.isLt
  simp only [append_toNat, famOf_toNat, xOf_toNat, yOf_toNat, nOf_toNat]
  omega

/-! ## The masks of the opcode map (R85) -/

theorem famOf_and (w m : Word) : famOf (w &&& m) = famOf w &&& famOf m := BitVec.extractLsb'_and ..

theorem nOf_and (w m : Word) : nOf (w &&& m) = nOf w &&& nOf m := BitVec.extractLsb'_and ..

theorem nnOf_and (w m : Word) : nnOf (w &&& m) = nnOf w &&& nnOf m := BitVec.extractLsb'_and ..

theorem and_F000 (w : Word) : w &&& 0xF000#16 = (famOf w ++ 0#12 : BitVec (4 + 12)) := by
  apply BitVec.eq_of_getLsbD_eq
  intro i hi
  simp only [famOf, BitVec.getLsbD_and, BitVec.getLsbD_append, BitVec.getLsbD_extractLsb']
  interval_cases i <;> simp

theorem and_F00F (w : Word) : w &&& 0xF00F#16 = (famOf w ++ 0#8 ++ nOf w : BitVec (4 + 8 + 4)) := by
  apply BitVec.eq_of_getLsbD_eq
  intro i hi
  simp only [famOf, nOf, BitVec.getLsbD_and, BitVec.getLsbD_append, BitVec.getLsbD_extractLsb']
  interval_cases i <;> simp

theorem and_F0FF (w : Word) : w &&& 0xF0FF#16 = (famOf w ++ 0#4 ++ nnOf w : BitVec (4 + 4 + 8)) := by
  apply BitVec.eq_of_getLsbD_eq
  intro i hi
  simp only [famOf, nnOf, BitVec.getLsbD_and, BitVec.getLsbD_append, BitVec.getLsbD_extractLsb']
  interval_cases i <;> simp

/-- The bytes of a word, read big-endian, are the word (R54). -/
theorem wordOfBytes_bytesOfWord (w : Word) : wordOfBytes (w.extractLsb' 8 8) (w.extractLsb' 0 8) = w := by
  apply BitVec.eq_of_toNat_eq
  have := w.isLt
  simp only [wordOfBytes, append_toNat, BitVec.extractLsb'_toNat, Nat.shiftRight_eq_div_pow]
  omega

/-! ## Decoding, one family at a time (R84) -/

theorem nibble_cases (f : BitVec 4) :
    f = 0x0 ∨ f = 0x1 ∨ f = 0x2 ∨ f = 0x3 ∨ f = 0x4 ∨ f = 0x5 ∨ f = 0x6 ∨ f = 0x7 ∨ f = 0x8 ∨ f = 0x9 ∨ f = 0xA ∨
      f = 0xB ∨ f = 0xC ∨ f = 0xD ∨ f = 0xE ∨ f = 0xF := by
  bv_omega

theorem decode_family0 {w : Word} (h : famOf w = 0x0) :
    decode w = (if w = 0x00E0 then .ok .cls else if w = 0x00EE then .ok .ret else .error .family0 : Except DecodeError Instr) := by
  simp [decode, h]

theorem decode_family1 {w : Word} (h : famOf w = 0x1) :
    decode w = (.ok (.jp (nnnOf w)) : Except DecodeError Instr) := by
  simp [decode, h]

theorem decode_family2 {w : Word} (h : famOf w = 0x2) :
    decode w = (.ok (.call (nnnOf w)) : Except DecodeError Instr) := by
  simp [decode, h]

theorem decode_family3 {w : Word} (h : famOf w = 0x3) :
    decode w = (.ok (.seImm (xOf w) (nnOf w)) : Except DecodeError Instr) := by
  simp [decode, h]

theorem decode_family4 {w : Word} (h : famOf w = 0x4) :
    decode w = (.ok (.sneImm (xOf w) (nnOf w)) : Except DecodeError Instr) := by
  simp [decode, h]

theorem decode_family5 {w : Word} (h : famOf w = 0x5) :
    decode w = (if nOf w = 0 then .ok (.seReg (xOf w) (yOf w)) else .error .family5 : Except DecodeError Instr) := by
  simp [decode, h]

theorem decode_family6 {w : Word} (h : famOf w = 0x6) :
    decode w = (.ok (.ldImm (xOf w) (nnOf w)) : Except DecodeError Instr) := by
  simp [decode, h]

theorem decode_family7 {w : Word} (h : famOf w = 0x7) :
    decode w = (.ok (.addImm (xOf w) (nnOf w)) : Except DecodeError Instr) := by
  simp [decode, h]

theorem decode_family8 {w : Word} (h : famOf w = 0x8) :
    decode w = (decodeFamily8 (xOf w) (yOf w) (nOf w) : Except DecodeError Instr) := by
  simp [decode, h]

theorem decode_family9 {w : Word} (h : famOf w = 0x9) :
    decode w = (if nOf w = 0 then .ok (.sneReg (xOf w) (yOf w)) else .error .family9 : Except DecodeError Instr) := by
  simp [decode, h]

theorem decode_familyA {w : Word} (h : famOf w = 0xA) :
    decode w = (.ok (.ldI (nnnOf w)) : Except DecodeError Instr) := by
  simp [decode, h]

theorem decode_familyB {w : Word} (h : famOf w = 0xB) :
    decode w = (.error .familyB : Except DecodeError Instr) := by
  simp [decode, h]

theorem decode_familyC {w : Word} (h : famOf w = 0xC) :
    decode w = (.ok (.rnd (xOf w) (nnOf w)) : Except DecodeError Instr) := by
  simp [decode, h]

theorem decode_familyD {w : Word} (h : famOf w = 0xD) :
    decode w = (.ok (.drw (xOf w) (yOf w) (nOf w)) : Except DecodeError Instr) := by
  simp [decode, h]

theorem decode_familyE {w : Word} (h : famOf w = 0xE) :
    decode w = (decodeFamilyE (xOf w) (nnOf w) : Except DecodeError Instr) := by
  simp [decode, h]

theorem decode_familyF {w : Word} (h : famOf w = 0xF) :
    decode w = (decodeFamilyF (xOf w) (nnOf w) : Except DecodeError Instr) := by
  simp [decode, h]

end Sys2Proof
end

