-- ==== Sys2Proof/Laws/PerInstr.lean ====
section
/-! SUPPORT. Statements about every instruction as syntax, one lemma per constructor. -/

namespace Sys2Proof.Laws.EncodingFitsRow

/-- The instruction's word is one that its own row of the opcode map matches: `(encode i & mask) = match`
(spec/30_encoding.md R85). -/
def Statement (i : Instr) : Prop := i.row.matchesWord (encode i) = true

theorem cls : Statement (.cls) := by
  unfold Statement
  decide

theorem ret : Statement (.ret) := by
  unfold Statement
  decide

theorem jp (nnn : Addr12) : Statement (.jp nnn) := by
  simp [Statement, Instr.row, OpcodeRow.matchesWord, encode, and_F000, famOf_addr]

theorem call (nnn : Addr12) : Statement (.call nnn) := by
  simp [Statement, Instr.row, OpcodeRow.matchesWord, encode, and_F000, famOf_addr]

theorem seImm (x : Reg) (nn : Byte) : Statement (.seImm x nn) := by
  simp [Statement, Instr.row, OpcodeRow.matchesWord, encode, and_F000, famOf_imm]

theorem sneImm (x : Reg) (nn : Byte) : Statement (.sneImm x nn) := by
  simp [Statement, Instr.row, OpcodeRow.matchesWord, encode, and_F000, famOf_imm]

theorem seReg (x : Reg) (y : Reg) : Statement (.seReg x y) := by
  simp [Statement, Instr.row, OpcodeRow.matchesWord, encode, and_F00F, famOf_reg, nOf_reg]

theorem ldImm (x : Reg) (nn : Byte) : Statement (.ldImm x nn) := by
  simp [Statement, Instr.row, OpcodeRow.matchesWord, encode, and_F000, famOf_imm]

theorem addImm (x : Reg) (nn : Byte) : Statement (.addImm x nn) := by
  simp [Statement, Instr.row, OpcodeRow.matchesWord, encode, and_F000, famOf_imm]

theorem ldReg (x : Reg) (y : Reg) : Statement (.ldReg x y) := by
  simp [Statement, Instr.row, OpcodeRow.matchesWord, encode, and_F00F, famOf_reg, nOf_reg]

theorem orReg (x : Reg) (y : Reg) : Statement (.orReg x y) := by
  simp [Statement, Instr.row, OpcodeRow.matchesWord, encode, and_F00F, famOf_reg, nOf_reg]

theorem andReg (x : Reg) (y : Reg) : Statement (.andReg x y) := by
  simp [Statement, Instr.row, OpcodeRow.matchesWord, encode, and_F00F, famOf_reg, nOf_reg]

theorem xorReg (x : Reg) (y : Reg) : Statement (.xorReg x y) := by
  simp [Statement, Instr.row, OpcodeRow.matchesWord, encode, and_F00F, famOf_reg, nOf_reg]

theorem addReg (x : Reg) (y : Reg) : Statement (.addReg x y) := by
  simp [Statement, Instr.row, OpcodeRow.matchesWord, encode, and_F00F, famOf_reg, nOf_reg]

theorem sub (x : Reg) (y : Reg) : Statement (.sub x y) := by
  simp [Statement, Instr.row, OpcodeRow.matchesWord, encode, and_F00F, famOf_reg, nOf_reg]

theorem shr (x : Reg) (y : Reg) : Statement (.shr x y) := by
  simp [Statement, Instr.row, OpcodeRow.matchesWord, encode, and_F00F, famOf_reg, nOf_reg]

theorem shl (x : Reg) (y : Reg) : Statement (.shl x y) := by
  simp [Statement, Instr.row, OpcodeRow.matchesWord, encode, and_F00F, famOf_reg, nOf_reg]

theorem sneReg (x : Reg) (y : Reg) : Statement (.sneReg x y) := by
  simp [Statement, Instr.row, OpcodeRow.matchesWord, encode, and_F00F, famOf_reg, nOf_reg]

theorem ldI (nnn : Addr12) : Statement (.ldI nnn) := by
  simp [Statement, Instr.row, OpcodeRow.matchesWord, encode, and_F000, famOf_addr]

theorem rnd (x : Reg) (nn : Byte) : Statement (.rnd x nn) := by
  simp [Statement, Instr.row, OpcodeRow.matchesWord, encode, and_F000, famOf_imm]

theorem drw (x : Reg) (y : Reg) (n : BitVec 4) : Statement (.drw x y n) := by
  simp [Statement, Instr.row, OpcodeRow.matchesWord, encode, and_F000, famOf_reg]

theorem skp (x : Reg) : Statement (.skp x) := by
  simp [Statement, Instr.row, OpcodeRow.matchesWord, encode, and_F0FF, famOf_imm, nnOf_imm]

theorem sknp (x : Reg) : Statement (.sknp x) := by
  simp [Statement, Instr.row, OpcodeRow.matchesWord, encode, and_F0FF, famOf_imm, nnOf_imm]

theorem ldVxDt (x : Reg) : Statement (.ldVxDt x) := by
  simp [Statement, Instr.row, OpcodeRow.matchesWord, encode, and_F0FF, famOf_imm, nnOf_imm]

theorem ldVxK (x : Reg) : Statement (.ldVxK x) := by
  simp [Statement, Instr.row, OpcodeRow.matchesWord, encode, and_F0FF, famOf_imm, nnOf_imm]

theorem ldDtVx (x : Reg) : Statement (.ldDtVx x) := by
  simp [Statement, Instr.row, OpcodeRow.matchesWord, encode, and_F0FF, famOf_imm, nnOf_imm]

theorem ldStVx (x : Reg) : Statement (.ldStVx x) := by
  simp [Statement, Instr.row, OpcodeRow.matchesWord, encode, and_F0FF, famOf_imm, nnOf_imm]

theorem addIVx (x : Reg) : Statement (.addIVx x) := by
  simp [Statement, Instr.row, OpcodeRow.matchesWord, encode, and_F0FF, famOf_imm, nnOf_imm]

theorem ldFVx (x : Reg) : Statement (.ldFVx x) := by
  simp [Statement, Instr.row, OpcodeRow.matchesWord, encode, and_F0FF, famOf_imm, nnOf_imm]

theorem ldBVx (x : Reg) : Statement (.ldBVx x) := by
  simp [Statement, Instr.row, OpcodeRow.matchesWord, encode, and_F0FF, famOf_imm, nnOf_imm]

theorem ldMemVx (x : Reg) : Statement (.ldMemVx x) := by
  simp [Statement, Instr.row, OpcodeRow.matchesWord, encode, and_F0FF, famOf_imm, nnOf_imm]

theorem ldVxMem (x : Reg) : Statement (.ldVxMem x) := by
  simp [Statement, Instr.row, OpcodeRow.matchesWord, encode, and_F0FF, famOf_imm, nnOf_imm]


end Sys2Proof.Laws.EncodingFitsRow
end

