-- ==== Sys2Proof/Laws/Transactions.lean ====
section
/-! SUPPORT. What each transaction of the host can do, once (spec/40_cycle.md R115 to R117, spec/70 R264), and how a
transaction Step stands to `step`. -/

namespace Sys2Proof.Machine

/-- SetKey: nothing in Faulted; only the key otherwise; or the end of the wait. -/
theorem setKey_cases (k : Reg) (pressed : Bool) (s : State) :
    (s.runState = .faulted ∧ setKey k pressed s = s) ∨
    (s.runState ≠ .faulted ∧ ¬ (s.runState = .awaitingKey ∧ s.key k = false ∧ pressed = true) ∧
      setKey k pressed s = s.setKey k pressed) ∨
    (s.runState = .awaitingKey ∧ s.key k = false ∧ pressed = true ∧
      setKey k pressed s = ((s.setKey k true).setReg s.waitReg (zext8 k)).setRunState .running) := by
  unfold setKey
  cases hr : s.runState with
  | running => simp
  | faulted => simp
  | awaitingKey =>
    by_cases h : s.key k = false ∧ pressed = true
    · obtain ⟨h, rfl⟩ := h
      simp [h]
    · simp only [if_neg h]
      simp [h]

/-- Load: no move; a failure that changes nothing; or the image in memory and the window closed. -/
theorem loadImage_cases (image : Option (List Byte)) (s : State) :
    (s.loaded = true ∧ loadImage image s = none) ∨
    (s.loaded = false ∧ (∀ b, image = some b → loadableImage b = false) ∧ loadImage image s = some (.failure, s)) ∨
    (∃ b, s.loaded = false ∧ image = some b ∧ loadableImage b = true ∧
      loadImage image s = some (.success, (s.setMem (s.mem.writeBytes Config.programBase b)).setLoaded true)) := by
  cases hl : s.loaded with
  | true => exact .inl ⟨rfl, by simp [loadImage, hl]⟩
  | false =>
    refine .inr ?_
    cases image with
    | none => exact .inl ⟨rfl, nofun, by simp [loadImage, hl]⟩
    | some b =>
      cases hb : loadableImage b with
      | false =>
        refine .inl ⟨rfl, fun c hc => ?_, by simp [loadImage, hl, hb]⟩
        cases hc
        exact hb
      | true => exact .inr ⟨b, rfl, rfl, hb, by simp [loadImage, hl, hb]⟩

/-- The transaction Step is `step`, with `stepOutput` as its answer. -/
theorem transact_step {s t : State} {r : Response} (h : transact .step s = some (r, t)) :
    step s = .next t ∧ r = .step (stepOutput s) := by
  simp only [transact] at h
  split at h
  · next e =>
    cases h
    exact ⟨e, rfl⟩
  · cases h
  · cases h

end Sys2Proof.Machine
end

