-- ==== Sys2Proof/Tests/Slice0.lean ====
section
/-! SUPPORT. The model's own tests. Expected results are those of spec/95_test_vectors.md (the id L... beside each test),
of the example of the rule named, or worked out by hand from it. First the ill-formed inputs the checks refuse, then one
decoding per instruction, then single Steps, then for every obligation with hypotheses a witness that they can all hold,
with the boundary values of its clauses. -/

namespace Sys2Proof.Tests

open Sys2Proof.Machine

/-! ## Helpers -/

/-- The answer is a next state that `p` holds of. -/
def answers (r : Result) (p : State → Bool) : Bool :=
  match r with
  | .next t => p t
  | .fault _ => false
  | .refused _ => false

/-- One Step on `s` with the word `w` at PC ends in a state that `p` holds of. -/
def steps (s : State) (w : Nat) (p : State → Bool) : Bool := answers (step (s.withFetchWord 16 w)) p

/-- The state is Faulted with this record. -/
def faultIs (t : State) (c : Cause) (pc w a : Word) : Bool :=
  decide (t.runState = .faulted ∧ t.fault = { cause := c, pc := pc, word := w, addr := a })

/-- These pixels, (column, row), are lit. -/
def lit (s : State) (ps : List Point) : Bool := ps.all fun p => s.fb.pixel p

/-- These pixels are unlit. -/
def unlit (s : State) (ps : List Point) : Bool := ps.all fun p => !s.fb.pixel p

/-- The reset state with registers set. -/
def withRegs (rs : List (Reg × Byte)) : State := rs.foldl (fun s p => s.setReg p.1 p.2) State.reset

/-- The reset state with bytes stored from an address on. -/
def withBytes (a : Nat) (bs : List Byte) : State := State.reset.setMem (Memory.writeBytes [] a bs)

/-! ## Ill-formed inputs are refused -/

/-- L2-C9, L2-S7, L2-F5, L2-F6: no row of the opcode map matches these words. -/
theorem test_illegal_words_are_refused :
    legalWord 0x0000 = false ∧ legalWord 0x5121 = false ∧ legalWord 0xB200 = false ∧ legalWord 0x8127 = false := by
  decide

/-- L1-8: 3584 bytes fit, 3585 do not. -/
theorem test_long_image_is_refused :
    loadableImage (List.replicate 3585 0xAA) = false ∧ loadableImage (List.replicate 3584 0xAA) = true := by
  unfold loadableImage Config.maxImage
  rw [List.length_replicate, List.length_replicate]
  decide

/-- Memory lists that are not canonical: not rising, above 0xFFF, an entry that reads so unlisted. -/
theorem test_bad_memories_are_refused :
    ¬ Memory.wf [(0x301, 1), (0x300, 1)] ∧ ¬ Memory.wf [(0x300, 1), (0x300, 2)] ∧ ¬ Memory.wf [(0x1000, 1)] ∧
      ¬ Memory.wf [(0x300, 0)] ∧ ¬ Memory.wf [(0, 0xF0)] := by
  decide

/-- R80: an instruction is two bytes. -/
theorem test_short_bytes_are_refused :
    decodeBytes [] = .error .tooShort ∧ decodeBytes [0x12] = .error .tooShort ∧
      decodeBytes [0x12, 0x34, 0x56] = .ok (.jp 0x234, [0x56]) := by
  decide

/-! ## Decoding: one word written out per instruction, from the patterns and layouts of R81, R82, R85 -/

theorem test_decode_families_0_to_5 :
    decode 0x00E0 = .ok .cls ∧ decode 0x00EE = .ok .ret ∧ decode 0x1234 = .ok (.jp 0x234) ∧
      decode 0x2FED = .ok (.call 0xFED) ∧ decode 0x3A42 = .ok (.seImm 0xA 0x42) ∧ decode 0x4B81 = .ok (.sneImm 0xB 0x81) ∧
      decode 0x51E0 = .ok (.seReg 1 0xE) := by
  decide

theorem test_decode_families_6_to_9 :
    decode 0x6A02 = .ok (.ldImm 0xA 0x02) ∧ decode 0x7C91 = .ok (.addImm 0xC 0x91) ∧ decode 0x8120 = .ok (.ldReg 1 2) ∧
      decode 0x8231 = .ok (.orReg 2 3) ∧ decode 0x8342 = .ok (.andReg 3 4) ∧ decode 0x8453 = .ok (.xorReg 4 5) ∧
      decode 0x8564 = .ok (.addReg 5 6) ∧ decode 0x8675 = .ok (.sub 6 7) ∧ decode 0x8786 = .ok (.shr 7 8) ∧
      decode 0x889E = .ok (.shl 8 9) ∧ decode 0x9120 = .ok (.sneReg 1 2) := by
  decide

theorem test_decode_families_A_to_D :
    decode 0xA321 = .ok (.ldI 0x321) ∧ decode 0xC30F = .ok (.rnd 3 0x0F) ∧ decode 0xDAB5 = .ok (.drw 0xA 0xB 5) := by
  decide

theorem test_decode_families_E_and_F :
    decode 0xE59E = .ok (.skp 5) ∧ decode 0xE6A1 = .ok (.sknp 6) ∧ decode 0xF107 = .ok (.ldVxDt 1) ∧
      decode 0xF20A = .ok (.ldVxK 2) ∧ decode 0xF315 = .ok (.ldDtVx 3) ∧ decode 0xF418 = .ok (.ldStVx 4) ∧
      decode 0xF51E = .ok (.addIVx 5) ∧ decode 0xF629 = .ok (.ldFVx 6) ∧ decode 0xF733 = .ok (.ldBVx 7) ∧
      decode 0xF855 = .ok (.ldMemVx 8) ∧ decode 0xF965 = .ok (.ldVxMem 9) := by
  decide

/-- The table numbers bit 0 as the least significant bit of the one word. -/
theorem test_decode_table_word :
    decodeTableWord 16 0xDAB5 = some (.drw 0xA 0xB 5) ∧ decodeTableWord 16 0x0000 = none := by
  decide

/-- The mnemonics of the opcode map are all different, as are its patterns. -/
theorem test_opcode_map_has_32_rows : opcodeMap.length = 32 ∧ (opcodeMap.map OpcodeRow.mnemonic).Nodup := by
  decide

/-! ## Families 0 to 5 -/

/-- L2-C1, L2-C2. -/
theorem test_cls :
    steps (State.reset.setFb (State.reset.fb.flip (5, 7))) 0x00E0 (fun t => unlit t [(5, 7)] && !t.needsRender) = true ∧
      steps { State.reset with params := { defaultParams with clsSetsDirty := true } } 0x00E0
        (fun t => t.needsRender) = true := by
  decide

/-- L2-C3. -/
theorem test_ret :
    steps { State.reset with pc := 0x212, sp := 1, stack := State.reset.stack.set 0 0x206 } 0x00EE
      (fun t => t.pc == 0x206 && t.sp == 0) = true := by
  decide

/-- L2-C4. -/
theorem test_ret_on_an_empty_stack :
    steps State.reset 0x00EE (fun t => faultIs t .stackUnderflow 0x200 0x00EE 0 && t.pc == 0x202) = true := by
  decide

/-- L2-C5. -/
theorem test_jp : steps State.reset 0x1234 (fun t => t.pc == 0x234) = true := by decide

/-- L2-C6, L2-C8. -/
theorem test_call :
    steps State.reset 0x2300 (fun t => t.pc == 0x300 && t.sp == 1 && t.stack[0] == 0x202) = true ∧
      steps { State.reset with pc := 0xFFE } 0x2300 (fun t => t.pc == 0x300 && t.stack[0] == 0x1000) = true := by
  decide

/-- L2-C7. -/
theorem test_call_on_a_full_stack :
    steps { State.reset with sp := 16 } 0x2300
      (fun t => faultIs t .stackOverflow 0x200 0x2300 0 && t.sp == 16 && t.pc == 0x202) = true := by
  decide

/-- L2-S1, L2-S2. -/
theorem test_seImm :
    steps (withRegs [(3, 0x42)]) 0x3342 (fun t => t.pc == 0x204) = true ∧
      steps (withRegs [(3, 0x42)]) 0x3343 (fun t => t.pc == 0x202) = true := by
  decide

/-- L2-S3, L2-S4. -/
theorem test_sneImm :
    steps (withRegs [(3, 0x42)]) 0x4300 (fun t => t.pc == 0x204) = true ∧
      steps (withRegs [(3, 0x42)]) 0x4342 (fun t => t.pc == 0x202) = true := by
  decide

/-- L2-S5, L2-S6. -/
theorem test_seReg :
    steps (withRegs [(1, 0x07), (2, 0x07)]) 0x5120 (fun t => t.pc == 0x204) = true ∧
      steps (withRegs [(1, 0x07), (2, 0x08)]) 0x5120 (fun t => t.pc == 0x202) = true := by
  decide

/-! ## Families 6 to 9 -/

/-- L2-A1. -/
theorem test_ldImm : steps State.reset 0x6A5C (fun t => t.reg 0xA == 0x5C) = true := by decide

/-- L2-A2. -/
theorem test_addImm :
    steps (withRegs [(3, 0xFF), (0xF, 0x07)]) 0x7301 (fun t => t.reg 3 == 0x00 && t.reg 0xF == 0x07) = true := by
  decide

/-- L2-A3. -/
theorem test_ldReg : steps (withRegs [(2, 0x5A)]) 0x8120 (fun t => t.reg 1 == 0x5A) = true := by decide

/-- L2-A4. -/
theorem test_or :
    steps (withRegs [(1, 0xF0), (2, 0x0F), (0xF, 0x55)]) 0x8121 (fun t => t.reg 1 == 0xFF && t.reg 0xF == 0x55) = true := by
  decide

/-- L2-A5. -/
theorem test_and :
    steps (withRegs [(1, 0xF0), (2, 0x3C), (0xF, 0x55)]) 0x8122 (fun t => t.reg 1 == 0x30 && t.reg 0xF == 0x55) = true := by
  decide

/-- L2-A6. -/
theorem test_xor :
    steps (withRegs [(1, 0xF0), (2, 0x3C), (0xF, 0x55)]) 0x8123 (fun t => t.reg 1 == 0xCC && t.reg 0xF == 0x55) = true := by
  decide

/-- L2-A7, L2-A8. -/
theorem test_addReg :
    steps (withRegs [(1, 0xFF), (2, 0x01)]) 0x8124 (fun t => t.reg 1 == 0x00 && t.reg 0xF == 0x01) = true ∧
      steps (withRegs [(1, 0x7F), (2, 0x01)]) 0x8124 (fun t => t.reg 1 == 0x80 && t.reg 0xF == 0x00) = true := by
  decide

/-- L2-A10, L2-A11: with X = F the flag is what remains. -/
theorem test_addReg_into_VF :
    steps (withRegs [(0xF, 0x10), (2, 0xF5)]) 0x8F24 (fun t => t.reg 0xF == 0x01) = true ∧
      steps (withRegs [(0xF, 0x01), (2, 0x01)]) 0x8F24 (fun t => t.reg 0xF == 0x00) = true := by
  decide

/-- L2-A13, L2-A14. -/
theorem test_sub :
    steps (withRegs [(1, 0x03), (2, 0x05)]) 0x8125 (fun t => t.reg 1 == 0xFE && t.reg 0xF == 0x00) = true ∧
      steps (withRegs [(1, 0x04), (2, 0x04)]) 0x8125 (fun t => t.reg 1 == 0x00 && t.reg 0xF == 0x01) = true := by
  decide

/-- L2-A15, L2-A16: the other two polarities, at equal operands and at a borrow. -/
theorem test_sub_polarities :
    steps { withRegs [(1, 0x04), (2, 0x04)] with params := { defaultParams with subFlag := .noBorrowGt } } 0x8125
        (fun t => t.reg 0xF == 0x00) = true ∧
      steps { withRegs [(1, 0x03), (2, 0x05)] with params := { defaultParams with subFlag := .borrow } } 0x8125
        (fun t => t.reg 0xF == 0x01) = true := by
  decide

/-- L2-A18, L2-A20. -/
theorem test_shr :
    steps (withRegs [(1, 0x05)]) 0x8106 (fun t => t.reg 1 == 0x02 && t.reg 0xF == 0x01) = true ∧
      steps { withRegs [(1, 0x80), (2, 0x03)] with params := { defaultParams with shiftSrc := .vy } } 0x8126
        (fun t => t.reg 1 == 0x01 && t.reg 0xF == 0x01) = true := by
  decide

/-- L2-A22, L2-A23. -/
theorem test_shl :
    steps (withRegs [(1, 0x81)]) 0x810E (fun t => t.reg 1 == 0x02 && t.reg 0xF == 0x01) = true ∧
      steps { withRegs [(1, 0x81)] with params := { defaultParams with shlFlagShift := .fifteen } } 0x810E
        (fun t => t.reg 1 == 0x02 && t.reg 0xF == 0x00) = true := by
  decide

/-- L2-S8, L2-S9. -/
theorem test_sneReg :
    steps (withRegs [(1, 0x01), (2, 0x02)]) 0x9120 (fun t => t.pc == 0x204) = true ∧
      steps (withRegs [(1, 0x01), (2, 0x01)]) 0x9120 (fun t => t.pc == 0x202) = true := by
  decide

/-! ## Families A to D -/

/-- L2-D1. -/
theorem test_ldI : steps State.reset 0xA300 (fun t => t.i == 0x0300) = true := by decide

/-- L2-D3: the mask 00 gives 00, whatever is drawn (the draw itself is a free value). -/
theorem test_rnd_masked : answers (exec (.rnd 3 0x00) (withRegs [(3, 0x55)])) (fun t => t.reg 3 == 0x00) = true := by
  rw [exec_rnd]
  simp [answers, State.reg_setReg]

/-- R171: one draw per execution. -/
theorem test_rnd_takes_one_draw : steps State.reset 0xC30F (fun t => t.draws == 1) = true := by decide

/-- L2-D4: both coordinates wrap, pixel by pixel. -/
theorem test_drw_wraps :
    steps ((((withBytes 0x300 [0xFF]).setI 0x300).setReg 0 62).setReg 1 31) 0xD011
      (fun t => lit t [(62, 31), (63, 31), (0, 31), (5, 31)] && unlit t [(61, 31), (6, 31), (0, 0)] &&
        t.reg 0xF == 0 && t.needsRender) = true := by
  decide

/-- L2-D9: a collision. -/
theorem test_drw_collides :
    steps ((((withBytes 0x300 [0xC0]).setI 0x300).setFb ((State.reset.fb.flip (1, 0)).flip (5, 0)))) 0xD011
      (fun t => lit t [(0, 0), (5, 0)] && unlit t [(1, 0)] && t.reg 0xF == 1 && t.needsRender) = true := by
  decide

/-- L2-D10. -/
theorem test_drw_beyond_memory :
    steps ((withRegs [(0xF, 0x07)]).setI 0xFFF) 0xD012
      (fun t => faultIs t .address 0x200 0xD012 0x1000 && t.reg 0xF == 0x07 && !t.needsRender) = true := by
  decide

/-- L2-D7, L2-D12: no rows; and four columns of a row whose set bits lie beyond them. -/
theorem test_drw_no_rows_and_four_columns :
    steps ((withRegs [(0xF, 0x01)]).setI 0x2000) 0xD010
        (fun t => unlit t [(0, 0)] && t.reg 0xF == 0 && !t.needsRender && t.runState == .running) = true ∧
      steps { (withBytes 0x300 [0x0F]).setI 0x300 with params := { defaultParams with spriteRowBits := .four } } 0xD011
        (fun t => unlit t [(4, 0), (7, 0)] && t.needsRender) = true := by
  decide

/-! ## Families E and F -/

/-- L2-E1, L2-E2. -/
theorem test_skp :
    steps ((withRegs [(5, 0x0A)]).setKey 0xA true) 0xE59E (fun t => t.pc == 0x204) = true ∧
      steps (withRegs [(5, 0x0A)]) 0xE59E (fun t => t.pc == 0x202) = true := by
  decide

/-- L2-E5. -/
theorem test_skp_above_fifteen :
    steps (withRegs [(5, 0x10)]) 0xE59E (fun t => faultIs t .address 0x200 0xE59E 0x0010 && t.pc == 0x202) = true := by
  decide

/-- L2-E3, L2-E4. -/
theorem test_sknp :
    steps (withRegs [(5, 0x0A)]) 0xE5A1 (fun t => t.pc == 0x204) = true ∧
      steps ((withRegs [(5, 0x0A)]).setKey 0xA true) 0xE5A1 (fun t => t.pc == 0x202) = true := by
  decide

/-- L2-T1: DT is read after the decay. -/
theorem test_ldVxDt :
    steps (State.reset.setDt 0x10) 0xF307 (fun t => t.dt == 0x0F && t.reg 3 == 0x0F) = true := by
  decide

/-- L2-K1. -/
theorem test_ldVxK :
    steps (State.reset.setPc 0x206) 0xF20A
      (fun t => t.runState == .awaitingKey && t.waitReg == 2 && t.pc == 0x208) = true := by
  decide

/-- L2-T3. -/
theorem test_ldDtVx : steps ((withRegs [(0, 0x05)]).setDt 0x09) 0xF015 (fun t => t.dt == 0x05) = true := by
  decide

/-- L2-T5: the decay made 4, and the write of 0 is no edge. -/
theorem test_ldStVx :
    steps ((withRegs [(1, 0x00)]).setSt 0x05) 0xF118 (fun t => t.st == 0x00) = true ∧
      (stepOutput (((withRegs [(1, 0x00)]).setSt 0x05).withFetchWord 16 0xF118)).soundStopped = false := by
  decide

/-- L2-I2, L2-I3. -/
theorem test_addIVx :
    steps ((withRegs [(4, 0x01)]).setI 0x0FFF) 0xF41E
        (fun t => t.i == 0x1000 && t.reg 0xF == 0 && t.runState == .running) = true ∧
      steps ((withRegs [(4, 0x02)]).setI 0xFFFF) 0xF41E (fun t => t.i == 0x0001) = true := by
  decide

/-- L2-I4, L2-I6. -/
theorem test_ldFVx :
    steps (withRegs [(0xA, 0x0A)]) 0xFA29 (fun t => t.i == 0x0032) = true ∧
      steps (withRegs [(0xA, 0xFF)]) 0xFA29 (fun t => t.i == 0x04FB) = true := by
  decide

/-- L2-B6, L2-B7. -/
theorem test_ldBVx :
    steps ((withRegs [(5, 254)]).setI 0xFFD) 0xF533
        (fun t => t.mem.read 0xFFD == 2 && t.mem.read 0xFFE == 5 && t.mem.read 0xFFF == 4 && t.i == 0xFFD) = true ∧
      steps ((withRegs [(5, 254)]).setI 0xFFE) 0xF533
        (fun t => faultIs t .address 0x200 0xF533 0x1000 && t.mem.read 0xFFE == 0 && t.mem.read 0xFFF == 0) = true := by
  decide

/-- L2-M1, L2-M3. -/
theorem test_ldMemVx :
    steps ((withRegs [(0, 0x11), (1, 0x22), (2, 0x33)]).setI 0x400) 0xF255
        (fun t => t.mem.read 0x400 == 0x11 && t.mem.read 0x401 == 0x22 && t.mem.read 0x402 == 0x33 &&
          t.mem.read 0x403 == 0 && t.i == 0x400) = true ∧
      steps ((withRegs [(0, 0x11)]).setI 0xFFF) 0xF155
        (fun t => faultIs t .address 0x200 0xF155 0x1000 && t.mem.read 0xFFF == 0) = true := by
  decide

/-- L2-M6, L2-M8. -/
theorem test_ldVxMem :
    steps ((withBytes 0x300 [2, 5, 4, 9]).setI 0x300) 0xF265
        (fun t => t.reg 0 == 2 && t.reg 1 == 5 && t.reg 2 == 4 && t.reg 3 == 0 && t.i == 0x300) = true ∧
      steps (((withBytes 0x30F [0xAB]).setI 0x300).setReg 0xF 0x01) 0xFF65 (fun t => t.reg 0xF == 0xAB) = true := by
  decide

/-! ## Fetch, decode, run state and transactions -/

/-- L2-F2, L2-F3. -/
theorem test_fetch_beyond_memory :
    answers (step (State.reset.setPc 0xFFF)) (fun t => faultIs t .address 0xFFF 0 0x1000 && t.pc == 0xFFF) = true ∧
      answers (step (State.reset.setPc 0x1000)) (fun t => faultIs t .address 0x1000 0 0x1000 && t.pc == 0x1000) = true := by
  decide

/-- L2-F1, L2-F4: the last word of memory and an odd address are fetched. -/
theorem test_fetch_at_the_top_and_at_an_odd_address :
    steps (State.reset.setPc 0xFFE) 0x6001 (fun t => t.reg 0 == 1 && t.pc == 0x1000 && t.runState == .running) = true ∧
      steps (State.reset.setPc 0x201) 0x6001 (fun t => t.reg 0 == 1 && t.pc == 0x203) = true := by
  decide

/-- L2-F5, L2-F10: an illegal word faults after the decay, which still stops the sound. -/
theorem test_illegal_word_faults :
    steps (State.reset.setSt 1) 0xB200
        (fun t => faultIs t .decode 0x200 0xB200 0 && t.pc == 0x202 && t.st == 0) = true ∧
      (stepOutput (State.reset.setSt 1)).soundStopped = true := by
  decide

/-- L2-D14: the flag is cleared by a Step that draws nothing. -/
theorem test_dirty_flag_is_cleared :
    steps (State.reset.setNeedsRender true) 0x6000 (fun t => !t.needsRender) = true := by
  decide

/-- L2-K2, L2-K3: a held key completes no wait; a release and a press do. -/
theorem test_key_wait_needs_a_press_edge :
    (setKey 4 true ((State.reset.setKey 4 true).setRunState .awaitingKey)).runState = .awaitingKey ∧
      (setKey 4 true ((State.reset.setRunState .awaitingKey).setWaitReg 3)).runState = .running ∧
      (setKey 4 true ((State.reset.setRunState .awaitingKey).setWaitReg 3)).reg 3 = 0x04 := by
  decide

/-- L1-8: Load of no bytes, of a missing image, and a second Load. -/
theorem test_load :
    (loadImage (some [0x12, 0x34]) State.reset).map (fun p => (p.1, p.2.mem, p.2.loaded)) =
        some (.success, [(0x200, 0x12), (0x201, 0x34)], true) ∧
      loadImage none State.reset = some (.failure, State.reset) ∧
      loadImage (some []) (State.reset.setLoaded true) = none := by
  decide

/-! ## Witnesses: the hypotheses of each obligation hold together, at the boundary values of its clauses -/

/-- A running state with this PC and this word there. -/
def atWord (pc : Word) (w : Nat) : State := (State.reset.setPc pc).withFetchWord 16 w

/-- A state that waits for a key, as FX0A leaves it, the load window closed. -/
def waiting : State := ((State.reset.setLoaded true).setWaitReg 2).setRunState .awaitingKey

/-- A faulted state, as a Step that fetches 0x0000 leaves it. -/
def faulted : State := ((State.reset.setLoaded true).setPc 0x202).raiseFault .decode 0x200 0 0

theorem test_states_meet_the_invariants : State.reset.Inv ∧ waiting.Inv ∧ faulted.Inv := by
  unfold State.Inv State.NoFault
  decide

theorem test_witness_EncodeOfDecodeIsTheWord : decode 0x8F24 = .ok (.addReg 0xF 2) := by decide

theorem test_witness_DecodeAgreesWithTheOpcodeMap :
    (decode 0x8F24 = .ok (.addReg 0xF 2) ∧ legalWord 0x8F24 = true) ∧
      (decode 0x8F27 = .error .family8 ∧ legalWord 0x8F27 = false) := by
  decide

/-- Each row of the table of R86, beside its legal neighbours. -/
theorem test_witness_IllegalWordsAreThoseOfTheTable :
    decode 0x00E1 = .error .family0 ∧ decode 0x50FF = .error .family5 ∧ decode 0x8007 = .error .family8 ∧
      decode 0x800D = .error .family8 ∧ decode 0x800F = .error .family8 ∧ decode 0x9001 = .error .family9 ∧
      decode 0xBFFF = .error .familyB ∧ decode 0xE0A0 = .error .familyE ∧ decode 0xF066 = .error .familyF := by
  decide

/-- At reset's PC and at the last word of memory. -/
theorem test_witness_StepRunsTheDecodedInstruction :
    ((atWord 0x200 0x1234).runState = .running ∧ (atWord 0x200 0x1234).pc.toNat + 1 ≤ 0xFFF ∧
      decodeBytes [(atWord 0x200 0x1234).mem.read 0x200, (atWord 0x200 0x1234).mem.read 0x201] =
        .ok (.jp 0x234, [])) ∧
    ((atWord 0xFFE 0x6001).runState = .running ∧ (atWord 0xFFE 0x6001).pc.toNat + 1 ≤ 0xFFF ∧
      decodeBytes [(atWord 0xFFE 0x6001).mem.read 0xFFE, (atWord 0xFFE 0x6001).mem.read 0xFFF] =
        .ok (.ldImm 0 1, [])) := by
  decide

/-- At 0xFFF, where the second byte lies above, and at 0x1000, where both do. -/
theorem test_witness_FetchBeyondMemoryFaults :
    ((State.reset.setPc 0xFFF).runState = .running ∧ 0xFFF < (State.reset.setPc 0xFFF).pc.toNat + 1) ∧
      ((State.reset.setPc 0x1000).runState = .running ∧ 0xFFF < (State.reset.setPc 0x1000).pc.toNat + 1) := by
  decide

theorem test_witness_IllegalWordFaultsAfterTheAdvance :
    (atWord 0xFFE 0x5121).runState = .running ∧ (atWord 0xFFE 0x5121).pc.toNat + 1 ≤ 0xFFF ∧
      (0x5121 : Word) = (atWord 0xFFE 0x5121).mem.read 0xFFE ++ (atWord 0xFFE 0x5121).mem.read 0xFFF ∧
      legalWord 0x5121 = false := by
  decide

theorem test_witness_UnlistedBAndEWordsFaultDecode :
    (((atWord 0x200 0xB200).runState = .running ∧ (atWord 0x200 0xB200).pc.toNat + 1 ≤ 0xFFF ∧
      (0xB200 : Word) = (atWord 0x200 0xB200).mem.read 0x200 ++ (atWord 0x200 0xB200).mem.read 0x201) ∧
      famOf 0xB200 = 0xB) ∧
    (((atWord 0x200 0xE0A2).runState = .running ∧ (atWord 0x200 0xE0A2).pc.toNat + 1 ≤ 0xFFF ∧
      (0xE0A2 : Word) = (atWord 0x200 0xE0A2).mem.read 0x200 ++ (atWord 0x200 0xE0A2).mem.read 0x201) ∧
      famOf 0xE0A2 = 0xE ∧ nnOf 0xE0A2 ≠ 0x9E ∧ nnOf 0xE0A2 ≠ 0xA1) := by
  decide

/-- Both run states outside Running; that they meet the invariants is `test_states_meet_the_invariants`. -/
theorem test_witness_StepOutsideRunningChangesNothing :
    waiting.runState ≠ .running ∧ faulted.runState ≠ .running := by
  decide

/-- Each clause: not running; an instruction that writes no timer; FX15; FX18; FX07. -/
theorem test_witness_TimersDecayOncePerRunningStep :
    waiting.runState ≠ .running ∧ (atWord 0x200 0x6001).runState = .running ∧
      (atWord 0x200 0x6001).nextInstr = some (.ldImm 0 1) ∧ (atWord 0x200 0xF015).nextInstr = some (.ldDtVx 0) ∧
      (atWord 0x200 0xF018).nextInstr = some (.ldStVx 0) ∧ (atWord 0x200 0xF307).nextInstr = some (.ldVxDt 3) := by
  decide

/-- L1-5: JP to itself, with ST = 2. -/
def looping : State := (atWord 0x200 0x1200).setSt 2

/-- The state after one Step of `looping`. -/
def looped : State := (looping.setLoaded true).setSt 1

theorem test_looping_once :
    runTransactions [.step] looping = some ([.step { soundStopped := false }], looped) := by
  decide

/-- Over two Steps the state stays Running and executes no FX18. -/
theorem test_witness_SoundTimerStopsExactlyOnce :
    ∀ k < 2, ∀ rs t, runTransactions (List.replicate k .step) looping = some (rs, t) →
      t.runState = .running ∧ ∀ x, t.nextInstr ≠ some (.ldStVx x) := by
  have h : ∀ t : State, t = looping ∨ t = looped → t.runState = .running ∧ t.nextInstr = some (.jp 0x200) := by
    rintro t (rfl | rfl)
    · decide
    · decide
  intro k hk rs t e
  have ht : t = looping ∨ t = looped := by
    match k, hk with
    | 0, _ => exact .inl (congrArg Prod.snd (Option.some.inj e)).symm
    | 1, _ => exact .inr (congrArg Prod.snd (Option.some.inj (e.symm.trans test_looping_once)))
  exact ⟨(h t ht).1, fun x hx => by rw [(h t ht).2] at hx; cases hx⟩

/-- Each way to set the flag, the sprite's last byte at 0xFFF. -/
theorem test_witness_DirtyFlagReportsThisStepOnly :
    (((atWord 0x200 0xD012).setI 0xFFE).runState = .running ∧
      ((atWord 0x200 0xD012).setI 0xFFE).nextInstr = some (.drw 0 1 2) ∧
      ((atWord 0x200 0xD012).setI 0xFFE).i.toNat + (2 : BitVec 4).toNat - 1 ≤ 0xFFF) ∧
    (({ atWord 0x200 0x00E0 with params := { defaultParams with clsSetsDirty := true } } : State).nextInstr =
      some .cls) := by
  decide

theorem test_witness_EveryStepKeepsTheInvariants : ∃ t, State.reset.Inv ∧ step State.reset = .next t :=
  ⟨_, test_states_meet_the_invariants.1, rfl⟩

theorem test_witness_EveryTransactionKeepsTheInvariants :
    ∃ r t, State.reset.Inv ∧ transact (.load (some [0x12, 0x00])) State.reset = some (r, t) :=
  ⟨_, _, test_states_meet_the_invariants.1, rfl⟩

theorem test_witness_ParametersNeverChange : ∃ r t, transact .reset waiting = some (r, t) := ⟨_, _, rfl⟩

/-- One instruction that faults, one that does not. -/
theorem test_witness_FaultingInstructionWritesNothing :
    (∃ t, (State.reset.setPc 0x202).pc = (0x200 : Word) + 2 ∧ (State.reset.setPc 0x202).NoFault ∧
      exec .ret (State.reset.setPc 0x202) = .next t ∧ t.runState = .faulted) ∧
    (∃ t, exec (.ldI 5) (State.reset.setPc 0x202) = .next t ∧ t.NoFault) :=
  ⟨⟨_, rfl, nofun, rfl, rfl⟩, ⟨_, rfl, nofun⟩⟩

theorem test_witness_FaultedIsTerminal :
    faulted.Inv ∧ faulted.runState = .faulted ∧ Transaction.reset ∉ [.step, .setKey 3 true, .readStatus] ∧
      ∃ rs, runTransactions [.step, .setKey 3 true, .readStatus] faulted = some (rs, faulted) :=
  ⟨test_states_meet_the_invariants.2.2, rfl, by decide, _, rfl⟩

theorem test_witness_OnlyAPressEndsTheWait :
    ∃ r t, waiting.runState = .awaitingKey ∧ transact (.setKey 7 true) waiting = some (r, t) ∧
      t.runState ≠ .awaitingKey :=
  ⟨_, _, rfl, rfl, by decide⟩

/-- An instruction for each clause about a change: I, PC, SP and stack, run_state. -/
theorem test_witness_StateIsWrittenOnlyAsListed :
    answers (exec (.ldI 5) State.reset) (fun t => t.i != State.reset.i) = true ∧
      answers (exec (.call 5) State.reset)
        (fun t => t.pc != State.reset.pc && t.sp != State.reset.sp && t.stack != State.reset.stack) = true ∧
      answers (exec .ret State.reset) (fun t => t.runState != State.reset.runState) = true := by
  decide

theorem test_witness_RegistersAreWrittenOnlyAsNamed :
    (∃ t, exec (.addReg 3 5) State.reset = .next t) ∧ ¬ WritesReg (.addReg 3 5) 5 ∧ WritesReg (.addReg 3 5) 0xF :=
  ⟨⟨_, rfl⟩, by simp [WritesReg], .inr rfl⟩

/-- V0 and V1 hold the word 1234, and I and PC are both 0xFFE. -/
theorem test_witness_StoredCodeIsWhatTheNextStepRuns :
    let s := ((withRegs [(0, 0x12), (1, 0x34)]).setI 0xFFE).setPc 0xFFE
    s.runState = .running ∧ (1 : Reg) ≠ 0 ∧ s.i = s.pc ∧ s.i.toNat + (1 : Reg).toNat ≤ 0xFFF ∧
      encode (.jp 0x234) = s.reg 0 ++ s.reg 1 := by
  decide

/-- SP = 1, SP = 16, and SP = 0 with pc0 = 0x200. -/
theorem test_witness_RetPopsTheReturnAddress :
    ({ State.reset with sp := 1 } : State).sp.val = 0 + 1 ∧ ({ State.reset with sp := 16 } : State).sp.val = 15 + 1 ∧
      (State.reset.setPc 0x202).pc = (0x200 : Word) + 2 ∧ (State.reset.setPc 0x202).sp = 0 := by
  decide

/-- SP = 0, SP = 15, and SP = 16 with pc0 = 0xFFE. -/
theorem test_witness_CallPushesTheAdvancedPc :
    State.reset.sp.val < 16 ∧ ({ State.reset with sp := 15 } : State).sp.val < 16 ∧
      ({ State.reset with sp := 16, pc := 0x1000 } : State).sp.val = 16 ∧
      ({ State.reset with sp := 16, pc := 0x1000 } : State).pc = (0xFFE : Word) + 2 := by
  decide

/-- SP = 15 before the call; the state it leaves is one that the return can run in. -/
theorem test_witness_CallThenReturnComesBack :
    let s : State := { State.reset with sp := 15, pc := 0x202 }
    s.pc = (0x200 : Word) + 2 ∧ s.sp.val < 16 ∧ ∃ t, exec (.call 0x300) s = .next t ∧
      ∃ u : State, u.sp = t.sp ∧ ∀ (k : Nat) (hk : k < 16), k < t.sp.val → u.stack[k] = t.stack[k] :=
  ⟨by decide, by decide, _, rfl, _, rfl, fun _ _ _ => rfl⟩

/-- pc0 = 0x200, VX equal to NN and not. -/
theorem test_witness_SkipsOnAnImmediate :
    (State.reset.setPc 0x202).pc = (0x200 : Word) + 2 ∧ (State.reset.setPc 0x202).reg 3 = 0x00 ∧
      (State.reset.setPc 0x202).reg 3 ≠ 0x01 := by
  decide

/-- pc0 = 0xFFFE, where the advance wraps; VX equal to VY and not. -/
theorem test_witness_SkipsOnARegister :
    let s := (withRegs [(1, 1)]).setPc 0
    s.pc = (0xFFFE : Word) + 2 ∧ s.reg 1 ≠ s.reg 2 ∧ s.reg 2 = s.reg 3 := by
  decide

/-- 63FF 73FF at 0xFFC, the last two words of memory. -/
theorem test_witness_LoadThenAddDoublesTheImmediate :
    let s := (withBytes 0xFFC [0x63, 0xFF, 0x73, 0xFF]).setPc 0xFFC
    s.runState = .running ∧ s.pc.toNat + 3 ≤ 0xFFF ∧
      s.mem.read s.pc.toNat ++ s.mem.read (s.pc.toNat + 1) = encode (.ldImm 3 0xFF) ∧
      s.mem.read (s.pc.toNat + 2) ++ s.mem.read (s.pc.toNat + 3) = encode (.addImm 3 0xFF) := by
  decide

/-- The hypotheses of the results of 8XY4 to 8XYE: X = E, and each parameter value. -/
theorem test_witness_arithmetic_with_a_flag :
    (0xE : Reg) ≠ 0xF ∧ State.reset.params.subFlag = .noBorrowGe ∧ State.reset.params.shlFlagShift = .seven ∧
      ({ State.reset with params := { defaultParams with subFlag := .noBorrowGt } } : State).params.subFlag =
        .noBorrowGt ∧
      ({ State.reset with params := { defaultParams with subFlag := .borrow } } : State).params.subFlag = .borrow ∧
      ({ State.reset with params := { defaultParams with shlFlagShift := .fifteen } } : State).params.shlFlagShift =
        .fifteen := by
  decide

/-- No rows with I = 0xFFFF; the last sprite byte at 0xFFF; a pixel that is covered and one that is not. -/
theorem test_witness_DrwXorsTheSprite :
    ((0 : BitVec 4) = 0 ∧ (State.reset.setI 0xFFFF).i = 0xFFFF) ∧
      (State.reset.setI 0xFFF).i.toNat + (1 : BitVec 4).toNat - 1 ≤ 0xFFF ∧
      SpriteCovers State.reset 0 0 1 (3, 0) ∧ ¬ SpriteCovers State.reset 0 0 1 (3, 1) := by
  refine ⟨by decide, by decide, ⟨0, 3, by decide⟩, ?_⟩
  rintro ⟨r, c, hr, -, -, -, h⟩
  have hr : r < 1 := hr
  obtain rfl : r = 0 := by omega
  exact absurd h (by decide)

/-- I = 0xFFF with two rows, and I = 0x1000 with one. -/
theorem test_witness_DrwBeyondMemoryFaults :
    (((State.reset.setPc 0x202).setI 0xFFF).pc = (0x200 : Word) + 2 ∧ (2 : BitVec 4) ≠ 0 ∧
      0xFFF < ((State.reset.setPc 0x202).setI 0xFFF).i.toNat + (2 : BitVec 4).toNat - 1) ∧
    ((1 : BitVec 4) ≠ 0 ∧ 0xFFF < ((State.reset.setPc 0x202).setI 0x1000).i.toNat + (1 : BitVec 4).toNat - 1) := by
  decide

/-- L1-3: glyph 0 at (0, 0); the second draw runs in the state the first one leaves. -/
theorem test_witness_DrawingTwiceRestoresTheScreen :
    State.reset.i.toNat + (5 : BitVec 4).toNat - 1 ≤ 0xFFF ∧ ∃ t u : State,
      exec (.drw 0 1 5) State.reset = .next t ∧ u.fb = t.fb ∧ u.i = State.reset.i ∧
      u.reg 0 = State.reset.reg 0 ∧ u.reg 1 = State.reset.reg 1 ∧ u.params = State.reset.params ∧
      (∀ a, u.mem.read a = State.reset.mem.read a) ∧
      State.reset.fb.pixel (0, 0) = false ∧ t.fb.pixel (0, 0) = true :=
  ⟨by decide, _, _, rfl, rfl, rfl, by decide, by decide, rfl, fun _ => rfl, by decide, by decide⟩

/-- VX = 0x0F, the last key; VX = 0x10, one above it (KeyIndexAboveFifteenFaults). -/
theorem test_witness_KeySkipsReadTheKeypad :
    (((withRegs [(5, 0x0F)]).setPc 0x202).pc = (0x200 : Word) + 2 ∧
      (((withRegs [(5, 0x0F)]).setPc 0x202).reg 5).toNat = (0xF : Reg).toNat) ∧
    (((withRegs [(5, 0x10)]).setPc 0x202).pc = (0x200 : Word) + 2 ∧
      0x0F < (((withRegs [(5, 0x10)]).setPc 0x202).reg 5).toNat) := by
  decide

theorem test_witness_DelayTimerIsReadAndSet :
    (atWord 0x200 0xF307).runState = .running ∧ (atWord 0x200 0xF307).nextInstr = some (.ldVxDt 3) ∧
      (atWord 0x200 0xF015).runState = .running ∧ (atWord 0x200 0xF015).nextInstr = some (.ldDtVx 0) := by
  decide

/-- A key held when FX0A runs, and one that is not. -/
theorem test_witness_KeyWaitIsEntered :
    (State.reset.setKey 4 true).key 4 = true ∧ (State.reset.setKey 4 true).key 5 = false := by
  decide

theorem test_witness_SoundTimerIsSet :
    (atWord 0x200 0xF118).runState = .running ∧ (atWord 0x200 0xF118).nextInstr = some (.ldStVx 1) := by
  decide

theorem test_witness_KeyWaitGatesEveryStep :
    (State.reset.setLoaded true).loaded = true ∧ (State.reset.setLoaded true).key 0xF = false := by
  decide

/-- I = 0xFFD, the last address that fits; I = 0xFFE, the first that does not. -/
theorem test_witness_LdBVxStoresTheDigits :
    (State.reset.setI 0xFFD).i.toNat + 2 ≤ 0xFFF ∧ 0xFFF < ((State.reset.setPc 0x202).setI 0xFFE).i.toNat + 2 ∧
      ((State.reset.setPc 0x202).setI 0xFFE).pc = (0x200 : Word) + 2 := by
  decide

/-- X = 15 at 0xFF0 and X = 0 at 0xFFF fit, X = 15 at 0xFF1 does not; for both bulk transfers. -/
theorem test_witness_bulk_transfers :
    (State.reset.setI 0xFF0).i.toNat + (0xF : Reg).toNat ≤ 0xFFF ∧
      (State.reset.setI 0xFFF).i.toNat + (0 : Reg).toNat ≤ 0xFFF ∧
      0xFFF < ((State.reset.setPc 0x202).setI 0xFF1).i.toNat + (0xF : Reg).toNat ∧
      ((State.reset.setPc 0x202).setI 0xFF1).pc = (0x200 : Word) + 2 := by
  decide

/-- Loaded and not; 0, 3584 and 3585 bytes. -/
theorem test_witness_LoadPlacesTheImage :
    waiting.loaded = true ∧ State.reset.loaded = false ∧ ([] : List Byte).length ≤ 3584 ∧
      (List.replicate 3584 (0xAA : Byte)).length ≤ 3584 ∧ 3584 < (List.replicate 3585 (0xAA : Byte)).length := by
  refine ⟨by decide, by decide, by decide, ?_, ?_⟩
  · rw [List.length_replicate]
  · rw [List.length_replicate]
    decide

/-- Faulted; AwaitingKey with a press edge, with a held key and with a release; Running. -/
theorem test_witness_SetKeyCompletesTheWaitOnAPressEdge :
    faulted.runState = .faulted ∧ (waiting.runState = .awaitingKey ∧ waiting.key 7 = false) ∧
      ((waiting.setKey 7 true).runState = .awaitingKey ∧ (waiting.setKey 7 true).key 7 = true) ∧
      State.reset.runState = .running := by
  decide

end Sys2Proof.Tests
end

section
/-! SUPPORT. A Step read through the instruction it executes (spec/40_cycle.md R104 to R106): the inversion of `step` in
terms of `nextInstr`. -/

namespace Sys2Proof.Machine

theorem State.nextInstr_of_decode_ok {s : State} {i : Instr} (hpc : s.pc.toNat + 1 ≤ 0xFFF)
    (hd : decode (wordOfBytes (s.mem.read s.pc.toNat) (s.mem.read (s.pc.toNat + 1))) = .ok i) :
    s.nextInstr = some i := by
  rcases s.nextInstr_cases with ⟨h, -⟩ | ⟨e, -, he, -⟩ | ⟨j, -, hj, hn⟩
  · omega
  · cases hd.symm.trans he
  · cases hd.symm.trans hj
    exact hn

theorem State.nextInstr_of_decode_error {s : State} {e : DecodeError}
    (hd : decode (wordOfBytes (s.mem.read s.pc.toNat) (s.mem.read (s.pc.toNat + 1))) = .error e) :
    s.nextInstr = none := by
  rcases s.nextInstr_cases with ⟨-, hn⟩ | ⟨_, -, -, hn⟩ | ⟨j, -, hj, -⟩
  · exact hn
  · exact hn
  · cases hd.symm.trans hj

theorem State.nextInstr_of_fetch_beyond {s : State} (hpc : 0xFFF < s.pc.toNat + 1) : s.nextInstr = none := by
  rcases s.nextInstr_cases with ⟨-, hn⟩ | ⟨_, h, -, -⟩ | ⟨_, h, -, -⟩
  · exact hn
  · omega
  · omega

/-- The three ways a Step goes, by the instruction it executes: outside Running; no instruction, and a fault of the fetch
or of the decode after the decay; or the instruction, after the decay and the PC advance. -/
theorem step_cases_nextInstr (s : State) :
    (s.runState ≠ .running ∧ step s = .next (s.setLoaded true)) ∨
    (s.runState = .running ∧ s.nextInstr = none ∧ ∃ u c p w a,
      (u = s.beforeFetch ∨ u = s.beforeFetch.advancePc) ∧ step s = .next (u.raiseFault c p w a)) ∨
    (∃ i, s.runState = .running ∧ s.nextInstr = some i ∧ step s = exec i s.beforeFetch.advancePc) := by
  rcases step_cases s with h | ⟨hr, hpc, e⟩ | ⟨w, _, hr, -, rfl, hd, e⟩ | ⟨w, i, hr, hpc, rfl, hd, e⟩
  · exact .inl h
  · exact .inr (.inl ⟨hr, State.nextInstr_of_fetch_beyond hpc, _, _, _, _, _, .inl rfl, e⟩)
  · exact .inr (.inl ⟨hr, State.nextInstr_of_decode_error hd, _, _, _, _, _, .inr rfl, e⟩)
  · exact .inr (.inr ⟨i, hr, State.nextInstr_of_decode_ok hpc hd, e⟩)

end Sys2Proof.Machine
end

section
/-! SUPPORT. The timers in the execution of an instruction (spec/44_families_E-F.md R193, R195, R196). -/

namespace Sys2Proof.Machine

theorem skipOnKey_keeps_timers (i : Instr) (x : Reg) (b : Bool) (s : State) :
    ∃ t, skipOnKey i x b s = .next t ∧ t.dt = s.dt ∧ t.st = s.st := by
  rcases skipOnKey_cases i x b s with ⟨_, e⟩ | ⟨_, e⟩
  · exact ⟨_, e, State.skipIf_dt s _, State.skipIf_st s _⟩
  · exact ⟨_, e, rfl, rfl⟩

theorem storeAtI_keeps_timers (i : Instr) (bytes : List Byte) (s : State) :
    ∃ t, storeAtI i bytes s = .next t ∧ t.dt = s.dt ∧ t.st = s.st := by
  rcases storeAtI_cases i bytes s with ⟨_, e⟩ | ⟨_, e⟩ <;> exact ⟨_, e, rfl, rfl⟩

/-- FX15 alone writes DT, and FX18 alone ST: every other instruction leaves the timer, whether it faults or not. -/
theorem exec_timers (i : Instr) (s : State) :
    ∃ t, exec i s = .next t ∧ ((∀ x, i ≠ .ldDtVx x) → t.dt = s.dt) ∧ ((∀ x, i ≠ .ldStVx x) → t.st = s.st) := by
  cases i with
  | cls | jp _ | ldImm _ _ | addImm _ _ | ldReg _ _ | orReg _ _ | andReg _ _ | xorReg _ _ | addReg _ _ | sub _ _
  | shr _ _ | shl _ _ | ldI _ | rnd _ _ | ldVxDt _ | ldVxK _ | addIVx _ | ldFVx _ =>
    exact ⟨_, rfl, fun _ => rfl, fun _ => rfl⟩
  | seImm _ _ | sneImm _ _ | seReg _ _ | sneReg _ _ =>
    exact ⟨_, rfl, fun _ => State.skipIf_dt s _, fun _ => State.skipIf_st s _⟩
  | ldDtVx x => exact ⟨_, exec_ldDtVx x s, fun h => absurd rfl (h x), fun _ => rfl⟩
  | ldStVx x => exact ⟨_, exec_ldStVx x s, fun _ => rfl, fun h => absurd rfl (h x)⟩
  | ret =>
    rcases exec_ret_cases s with ⟨_, e⟩ | ⟨_, e⟩ <;> exact ⟨_, e, fun _ => rfl, fun _ => rfl⟩
  | call nnn =>
    rcases exec_call_cases nnn s with ⟨_, e⟩ | ⟨_, e⟩ <;> exact ⟨_, e, fun _ => rfl, fun _ => rfl⟩
  | drw x y n =>
    rcases exec_drw_cases x y n s with ⟨_, e⟩ | ⟨_, e⟩ <;> exact ⟨_, e, fun _ => rfl, fun _ => rfl⟩
  | ldVxMem x =>
    rcases exec_ldVxMem_cases x s with ⟨_, e⟩ | ⟨_, e⟩ <;> exact ⟨_, e, fun _ => rfl, fun _ => rfl⟩
  | skp x =>
    obtain ⟨t, e, hdt, hst⟩ := skipOnKey_keeps_timers (.skp x) x true s
    exact ⟨t, e, fun _ => hdt, fun _ => hst⟩
  | sknp x =>
    obtain ⟨t, e, hdt, hst⟩ := skipOnKey_keeps_timers (.sknp x) x false s
    exact ⟨t, e, fun _ => hdt, fun _ => hst⟩
  | ldBVx x =>
    obtain ⟨t, e, hdt, hst⟩ := storeAtI_keeps_timers (.ldBVx x) (decimalDigits (s.reg x)) s
    exact ⟨t, e, fun _ => hdt, fun _ => hst⟩
  | ldMemVx x =>
    obtain ⟨t, e, hdt, hst⟩ := storeAtI_keeps_timers (.ldMemVx x) (s.regsUpTo x) s
    exact ⟨t, e, fun _ => hdt, fun _ => hst⟩

end Sys2Proof.Machine
end

section
open Sys2Proof Sys2Proof.Machine

/-- Settles O12, by the three ways a Step goes: an instruction executes in the decayed state, where only FX15 and FX18
write a timer, and a fault of the fetch or of the decode keeps the decay. -/
theorem timersDecayOncePerRunningStep : Obligations.TimersDecayOncePerRunningStep := by
  intro s
  rcases step_cases_nextInstr s with ⟨hr, e⟩ | ⟨hr, hn, u, c, p, w, a, hu, e⟩ | ⟨i, hr, hn, e⟩
  · exact ⟨_, e, fun _ => ⟨rfl, rfl⟩, fun h => absurd h hr⟩
  · have hdt : u.dt = decayTimer s.dt := by rcases hu with rfl | rfl <;> rfl
    have hst : u.st = decayTimer s.st := by rcases hu with rfl | rfl <;> rfl
    refine ⟨_, e, fun h => absurd hr h, fun _ => ⟨fun _ => ?_, fun _ => ?_, ?_⟩⟩
    · rw [State.raiseFault_dt, hdt, decayTimer_toNat]
    · rw [State.raiseFault_st, hst, decayTimer_toNat]
    · simp [hn]
  · obtain ⟨t, ht, hdt, hst⟩ := exec_timers i s.beforeFetch.advancePc
    refine ⟨t, e.trans ht, fun h => absurd hr h, fun _ => ?_⟩
    simp only [hn, ne_eq, Option.some.injEq]
    refine ⟨fun h => ?_, fun h => ?_, ?_, ?_, ?_⟩
    · rw [hdt h, State.advancePc_dt, State.beforeFetch_dt, decayTimer_toNat]
    · rw [hst h, State.advancePc_st, State.beforeFetch_st, decayTimer_toNat]
    · rintro x rfl
      cases ht
      rfl
    · rintro x rfl
      cases ht
      rfl
    · rintro x rfl
      cases ht
      rw [State.reg_setReg, if_pos rfl, State.advancePc_dt, State.beforeFetch_dt, decayTimer_toNat]

end

section
/-! SUPPORT. Every instruction has its word (spec/30_encoding.md R82, R84): the decoder undoes the encoder. -/

namespace Sys2Proof

/-- One case per layout of R82; within a layout, the family and the sub-opcode pick the branch of the decoder. -/
theorem decode_encode (i : Instr) : decode (encode i) = .ok i := by
  cases i with
  | cls | ret => rfl
  | jp _ | call _ | ldI _ => simp [encode, decode, famOf_addr, nnnOf_addr]
  | seImm _ _ | sneImm _ _ | ldImm _ _ | addImm _ _ | rnd _ _ =>
    simp [encode, decode, famOf_imm, xOf_imm, nnOf_imm]
  | seReg _ _ | sneReg _ _ | drw _ _ _ => simp [encode, decode, famOf_reg, xOf_reg, yOf_reg, nOf_reg]
  | ldReg _ _ | orReg _ _ | andReg _ _ | xorReg _ _ | addReg _ _ | sub _ _ | shr _ _ | shl _ _ =>
    simp [encode, decode, decodeFamily8, famOf_reg, xOf_reg, yOf_reg, nOf_reg]
  | skp _ | sknp _ => simp [encode, decode, decodeFamilyE, famOf_imm, xOf_imm, nnOf_imm]
  | ldVxDt _ | ldVxK _ | ldDtVx _ | ldStVx _ | addIVx _ | ldFVx _ | ldBVx _ | ldMemVx _ | ldVxMem _ =>
    simp [encode, decode, decodeFamilyF, famOf_imm, xOf_imm, nnOf_imm]

end Sys2Proof

namespace Sys2Proof.Machine

theorem encodes_encode (i : Instr) : Encodes (encode i) i := ⟨decode_encode i, rfl⟩

end Sys2Proof.Machine
end

section
/-! SUPPORT. An instruction at pc0 executes with PC = pc0 + 2 (spec/40_cycle.md R104, R106): what its fault records, where
its skip goes on (R119), and the value of an address operand (spec/30_encoding.md R83). -/

namespace Sys2Proof.Machine

theorem zextAddr_toNat (a : Addr12) : (zextAddr a).toNat = a.toNat := BitVec.toNat_setWidth_of_le (by decide)

theorem FaultsWith.faultIn_of_pc {s : State} {pc0 : Word} (hpc : s.pc = pc0 + 2) (i : Instr) (c : Cause) (a : Word) :
    FaultsWith s (s.faultIn i c a) c pc0 (encode i) a := by
  have hpc0 : s.pc - 2 = pc0 := by rw [hpc, BitVec.add_sub_cancel]
  exact hpc0 ▸ FaultsWith.faultIn s i c a

theorem State.skipIf_pc_of_pc {s : State} {pc0 : Word} (hpc : s.pc = pc0 + 2) (c : Bool) :
    (s.skipIf c).pc = if c then pc0 + 4 else pc0 + 2 := by
  have hskip : pc0 + 2 + 2 = pc0 + 4 := BitVec.add_assoc ..
  rw [State.skipIf_pc, hpc, hskip]

/-- A skip on equal values, the test of 3XNN and of 5XY0 (R136, R138). -/
theorem State.skipIf_beq_pc {s : State} {pc0 : Word} (hpc : s.pc = pc0 + 2) (a b : Byte) :
    (s.skipIf (a == b)).pc = if a = b then pc0 + 4 else pc0 + 2 := by
  simp only [State.skipIf_pc_of_pc hpc, beq_iff_eq]

/-- A skip on different values, the test of 4XNN and of 9XY0 (R137, R162). -/
theorem State.skipIf_bne_pc {s : State} {pc0 : Word} (hpc : s.pc = pc0 + 2) (a b : Byte) :
    (s.skipIf (a != b)).pc = if a = b then pc0 + 2 else pc0 + 4 := by
  simp only [State.skipIf_pc_of_pc hpc, bne_iff_ne, ne_eq, ite_not]

end Sys2Proof.Machine
end

section
open Sys2Proof Sys2Proof.Machine

/-- Settles O26, by the two cases of a pop: an entry below SP, or an empty stack. -/
theorem retPopsTheReturnAddress : Obligations.RetPopsTheReturnAddress := by
  refine ⟨encodes_encode .ret, fun s n hn hsp => ?_, fun s pc0 hpc hsp => ?_⟩
  · rcases exec_ret_cases s with ⟨_, e⟩ | ⟨h, -⟩
    · have hidx : s.sp.val - 1 = n := by omega
      exact ⟨_, e, hidx, getElem_congr_idx hidx, rfl, fun _ => rfl⟩
    · simp [h] at hsp
  · rcases exec_ret_cases s with ⟨h, -⟩ | ⟨-, e⟩
    · simp [hsp] at h
    · exact ⟨_, e, FaultsWith.faultIn_of_pc hpc .ret .stackUnderflow 0⟩

/-- Settles O28, by the two cases of a push: room for the advanced PC at SP, or a full stack. -/
theorem callPushesTheAdvancedPc : Obligations.CallPushesTheAdvancedPc := by
  refine fun nnn s => ⟨encodes_encode (.call nnn), fun hlt => ?_, fun hfull pc0 hpc => ?_⟩
  · rcases exec_call_cases nnn s with ⟨_, e⟩ | ⟨h, -⟩
    · refine ⟨_, e, fun k hk => ?_, rfl, zextAddr_toNat nnn, rfl, fun _ => rfl⟩
      simp only [State.setPc_stack, State.setStack_stack, Vector.getElem_set, eq_comm (a := s.sp.val)]
    · simp [h] at hlt
  · rcases exec_call_cases nnn s with ⟨h, -⟩ | ⟨-, e⟩
    · omega
    · exact ⟨_, e, FaultsWith.faultIn_of_pc hpc (.call nnn) .stackOverflow 0⟩

/-- Settles O27: JP has one outcome, and its operand keeps its value in the wider PC. -/
theorem jpSetsThePc : Obligations.JpSetsThePc := fun nnn s =>
  ⟨encodes_encode (.jp nnn), _, exec_jp nnn s, zextAddr_toNat nnn, OnlyPcChanges.setPc s _⟩

/-- Settles O30, by where a skip on equal and on different values goes on. -/
theorem skipsOnAnImmediate : Obligations.SkipsOnAnImmediate := fun x nn s _ hpc =>
  ⟨⟨encodes_encode (.seImm x nn), _, exec_seImm x nn s, State.skipIf_beq_pc hpc _ _, OnlyPcChanges.skipIf s _⟩,
   ⟨encodes_encode (.sneImm x nn), _, exec_sneImm x nn s, State.skipIf_bne_pc hpc _ _, OnlyPcChanges.skipIf s _⟩⟩

end

section
/-! SUPPORT. A register write read back at its own register and at another one (spec/10_state.md R21), and the 8-bit sum as
a number (spec/42_families_6-9.md R151, R157). -/

namespace Sys2Proof.Machine

theorem State.reg_setReg_same (s : State) (x : Reg) (b : Byte) : (s.setReg x b).reg x = b := by
  rw [State.reg_setReg, if_pos rfl]

theorem State.reg_setReg_of_ne (s : State) {x r : Reg} (b : Byte) (h : r ≠ x) : (s.setReg x b).reg r = s.reg r := by
  rw [State.reg_setReg, if_neg h]

theorem addResult_toNat (a b : Byte) : (addResult a b).toNat = (a.toNat + b.toNat) % 256 :=
  (BitVec.toNat_ofNat ..).trans (Nat.mod_mod _ _)

end Sys2Proof.Machine
end

section
open Sys2Proof Sys2Proof.Machine

/-- Settles O32: LD_imm has one outcome, the write of its operand to VX. -/
theorem ldImmLoadsTheImmediate : Obligations.LdImmLoadsTheImmediate := fun x nn s =>
  ⟨encodes_encode (.ldImm x nn), _, exec_ldImm x nn s, OnlyRegsChange.setReg s x nn, State.reg_setReg s x nn⟩

/-- Settles O33: ADD_imm has one outcome, the write of the wrapped sum to VX; no other register, so no flag, is written. -/
theorem addImmAddsWithoutAFlag : Obligations.AddImmAddsWithoutAFlag := by
  intro x nn s
  refine ⟨encodes_encode (.addImm x nn), _, exec_addImm x nn s, OnlyRegsChange.setReg s x _, ?_, fun r hr => ?_⟩
  · rw [State.reg_setReg_same, addResult_toNat]
  · exact State.reg_setReg_of_ne s _ hr

end

section
open Sys2Proof Sys2Proof.Machine

/-- Settles O41: LD_I has one outcome, the write of I alone, and its operand keeps its value in the wider I. -/
theorem ldISetsTheIndex : Obligations.LdISetsTheIndex := fun nnn s =>
  ⟨encodes_encode (.ldI nnn), _, exec_ldI nnn s, zextAddr_toNat nnn, rfl, fun _ => rfl⟩

end

section
/-! SUPPORT. A write of several bytes read back inside and outside its range (spec/20_memory.md R53), the two outcomes of
a store at I by its bound, and the values of the digits and of the glyph address (spec/44_families_E-F.md R198 to R200). -/

namespace Sys2Proof.Machine

theorem Memory.read_writeBytes_inside (m : Memory) {a k : Nat} {bs : List Byte} (h : a + bs.length ≤ Config.memSize)
    (hk : k < bs.length) : (m.writeBytes a bs).read (a + k) = bs.getD k 0 := by
  rw [Memory.read_writeBytes m a bs h, if_pos (by omega), Nat.add_sub_cancel_left]

theorem Memory.read_writeBytes_outside (m : Memory) {a b : Nat} {bs : List Byte}
    (h : a + bs.length ≤ Config.memSize) (hb : b < a ∨ a + bs.length ≤ b) :
    (m.writeBytes a bs).read b = m.read b := by
  rw [Memory.read_writeBytes m a bs h, if_neg (by omega)]

theorem storeAtI_of_fits {bytes : List Byte} {s : State} (h : s.i.toNat + bytes.length ≤ Config.memSize) (i : Instr) :
    storeAtI i bytes s = .next (s.setMem (s.mem.writeBytes s.i.toNat bytes)) := by
  rcases storeAtI_cases i bytes s with ⟨-, e⟩ | ⟨hno, -⟩
  · exact e
  · rw [(accessOk_iff _ _).mpr (.inr h)] at hno
    contradiction

theorem storeAtI_of_exceeds {bytes : List Byte} {s : State} (hne : bytes ≠ [])
    (h : Config.memSize < s.i.toNat + bytes.length) (i : Instr) :
    storeAtI i bytes s = .next (s.faultIn i .address (firstOutOfRange s.i.toNat)) := by
  rcases storeAtI_cases i bytes s with ⟨hok, -⟩ | ⟨-, e⟩
  · rcases (accessOk_iff _ _).mp hok with hlen | hfits
    · exact absurd (List.eq_nil_of_length_eq_zero hlen) hne
    · omega
  · exact e

theorem length_decimalDigits (b : Byte) : (decimalDigits b).length = 3 := rfl

/-- No digit is cut by its byte. -/
theorem map_toNat_decimalDigits (b : Byte) :
    (decimalDigits b).map BitVec.toNat = [b.toNat / 100, b.toNat / 10 % 10, b.toNat % 10] := by
  have hcut {d : Nat} (hd : d < 256) : (BitVec.ofNat 8 d).toNat = d := Nat.mod_eq_of_lt hd
  have hb := b.isLt
  rw [decimalDigits, List.map_cons, List.map_cons, List.map_cons, List.map_nil, hcut (by omega), hcut (by omega),
    hcut (by omega)]

theorem Memory.toNat_read_writeBytes_decimalDigits (m : Memory) {a k : Nat} {b : Byte}
    (h : a + (decimalDigits b).length ≤ Config.memSize) (hk : k < 3) :
    ((m.writeBytes a (decimalDigits b)).read (a + k)).toNat =
      [b.toNat / 100, b.toNat / 10 % 10, b.toNat % 10].getD k 0 := by
  rw [Memory.read_writeBytes_inside m h hk, ← map_toNat_decimalDigits]
  exact (List.getD_map _ 0 BitVec.toNat).symm

/-- The product does not wrap: 5 times the largest byte is below 2^16. -/
theorem glyphAddress_toNat (b : Byte) : (glyphAddress b).toNat = 5 * b.toNat := by
  have hb := b.isLt
  have hzext : (zext16 b).toNat = b.toNat := BitVec.toNat_setWidth_of_le (by decide)
  rw [glyphAddress, hzext, BitVec.toNat_ofNat, Nat.mod_eq_of_lt (by omega)]

end Sys2Proof.Machine
end

section
open Sys2Proof Sys2Proof.Machine

/-- Settles O54, by the bound of the store: three bytes at I that read back as the digits, or a fault with nothing
written. -/
theorem ldBVxStoresTheDigits : Obligations.LdBVxStoresTheDigits := by
  refine fun x s => ⟨encodes_encode (.ldBVx x), fun hfits => ?_, fun hover pc0 hpc => ?_⟩
  · have hin : s.i.toNat + (decimalDigits (s.reg x)).length ≤ Config.memSize := by
      rw [length_decimalDigits]
      exact Nat.succ_le_succ hfits
    have hdigit (k : Nat) (hk : k < 3) := Memory.toNat_read_writeBytes_decimalDigits s.mem hin hk
    exact ⟨_, (exec_ldBVx x s).trans (storeAtI_of_fits hin _), hdigit 0 (by decide), hdigit 1 (by decide),
      hdigit 2 (by decide), fun a ha => Memory.read_writeBytes_outside s.mem hin ha, rfl⟩
  · have hout : Config.memSize < s.i.toNat + (decimalDigits (s.reg x)).length := by
      rw [length_decimalDigits]
      exact Nat.succ_lt_succ hover
    exact ⟨_, (exec_ldBVx x s).trans (storeAtI_of_exceeds (List.cons_ne_nil _ _) hout _),
      FaultsWith.faultIn_of_pc hpc (.ldBVx x) .address _⟩

/-- Settles O48: each instruction has one outcome, the write of VX and the write of DT; in a Step the timers are those
of O12. -/
theorem delayTimerIsReadAndSet : Obligations.DelayTimerIsReadAndSet := by
  intro x s
  obtain ⟨t, hstep, -, htimers⟩ := timersDecayOncePerRunningStep s
  refine ⟨⟨encodes_encode (.ldVxDt x), _, exec_ldVxDt x s, OnlyRegsChange.setReg s x s.dt, State.reg_setReg s x s.dt⟩,
    fun hrun hnext => ?_,
    ⟨encodes_encode (.ldDtVx x), _, exec_ldDtVx x s, rfl, rfl, fun _ => rfl⟩,
    fun hrun hnext => ?_⟩
  · obtain ⟨-, -, -, -, hread⟩ := htimers hrun
    exact ⟨t, hstep, hread x hnext⟩
  · obtain ⟨-, -, hset, -, -⟩ := htimers hrun
    exact ⟨t, hstep, hset x hnext⟩

/-- Settles O53: LD_F_Vx has one outcome, the write of I alone, and the address of the glyph is not cut. -/
theorem ldFVxPointsAtTheGlyph : Obligations.LdFVxPointsAtTheGlyph := fun x s =>
  ⟨encodes_encode (.ldFVx x), _, exec_ldFVx x s, glyphAddress_toNat (s.reg x), rfl, fun _ => rfl⟩

end

section
/-! SUPPORT. The encoder undoes the decoder (spec/30_encoding.md R82, R84): a word put together again from the fields
that the decoder keeps and those that it tests. -/

namespace Sys2Proof

theorem decodeBytes_bytesOfWord {w : Word} {i : Instr} (h : decode w = .ok i) (rest : List Byte) :
    decodeBytes (bytesOfWord w ++ rest) = .ok (i, rest) := by
  simp only [bytesOfWord, List.cons_append, List.nil_append, decodeBytes, wordOfBytes_bytesOfWord, h]

section
variable {w : Word} {f : BitVec 4} (hf : famOf w = f)
include hf

theorem addr_layout_eq_word : (f ++ nnnOf w : BitVec (4 + 12)) = w := hf ▸ word_eq_addr w

theorem imm_layout_eq_word {nn : Byte} (hnn : nnOf w = nn) : (f ++ xOf w ++ nn : BitVec (4 + 4 + 8)) = w :=
  hf ▸ hnn ▸ word_eq_imm w

theorem reg_layout_eq_word {n : BitVec 4} (hn : nOf w = n) :
    (f ++ xOf w ++ yOf w ++ n : BitVec (4 + 4 + 4 + 4)) = w :=
  hf ▸ hn ▸ word_eq_reg w

end

theorem encode_of_decodeFamily8 {w : Word} {i : Instr} (hf : famOf w = 0x8)
    (h : decodeFamily8 (xOf w) (yOf w) (nOf w) = .ok i) : encode i = w := by
  unfold decodeFamily8 at h
  split_ifs at h with hn hn hn hn hn hn hn hn
  all_goals
    cases h
    exact reg_layout_eq_word hf hn

theorem encode_of_decodeFamilyE {w : Word} {i : Instr} (hf : famOf w = 0xE)
    (h : decodeFamilyE (xOf w) (nnOf w) = .ok i) : encode i = w := by
  unfold decodeFamilyE at h
  split_ifs at h with hnn hnn
  all_goals
    cases h
    exact imm_layout_eq_word hf hnn

theorem encode_of_decodeFamilyF {w : Word} {i : Instr} (hf : famOf w = 0xF)
    (h : decodeFamilyF (xOf w) (nnOf w) = .ok i) : encode i = w := by
  unfold decodeFamilyF at h
  split_ifs at h with hnn hnn hnn hnn hnn hnn hnn hnn hnn
  all_goals
    cases h
    exact imm_layout_eq_word hf hnn

theorem encode_of_decode {w : Word} {i : Instr} (h : decode w = .ok i) : encode i = w := by
  rcases nibble_cases (famOf w) with hf | hf | hf | hf | hf | hf | hf | hf | hf | hf | hf | hf | hf | hf | hf | hf
  · rw [decode_family0 hf] at h
    split_ifs at h with hw hw
    · cases h
      exact hw.symm
    · cases h
      exact hw.symm
  · cases (decode_family1 hf).symm.trans h
    exact addr_layout_eq_word hf
  · cases (decode_family2 hf).symm.trans h
    exact addr_layout_eq_word hf
  · cases (decode_family3 hf).symm.trans h
    exact imm_layout_eq_word hf rfl
  · cases (decode_family4 hf).symm.trans h
    exact imm_layout_eq_word hf rfl
  · rw [decode_family5 hf] at h
    split_ifs at h with hn
    cases h
    exact reg_layout_eq_word hf hn
  · cases (decode_family6 hf).symm.trans h
    exact imm_layout_eq_word hf rfl
  · cases (decode_family7 hf).symm.trans h
    exact imm_layout_eq_word hf rfl
  · exact encode_of_decodeFamily8 hf ((decode_family8 hf).symm.trans h)
  · rw [decode_family9 hf] at h
    split_ifs at h with hn
    cases h
    exact reg_layout_eq_word hf hn
  · cases (decode_familyA hf).symm.trans h
    exact addr_layout_eq_word hf
  · cases (decode_familyB hf).symm.trans h
  · cases (decode_familyC hf).symm.trans h
    exact imm_layout_eq_word hf rfl
  · cases (decode_familyD hf).symm.trans h
    exact reg_layout_eq_word hf rfl
  · exact encode_of_decodeFamilyE hf ((decode_familyE hf).symm.trans h)
  · exact encode_of_decodeFamilyF hf ((decode_familyF hf).symm.trans h)

end Sys2Proof
end

section
open Sys2Proof Sys2Proof.Machine

/-- Settles O1: the decoder undoes the encoder, layout by layout, and reads a word's two bytes as the word. -/
theorem decodeOfEncodeIsTheInstruction : Obligations.DecodeOfEncodeIsTheInstruction := fun i =>
  ⟨decode_encode i, decodeBytes_bytesOfWord (decode_encode i)⟩

/-- Settles O2: the encoder undoes the decoder, family by family. -/
theorem encodeOfDecodeIsTheWord : Obligations.EncodeOfDecodeIsTheWord := fun _ _ => encode_of_decode

end

section
/-! SUPPORT. The opcode map read through the decoder (spec/30_encoding.md R85), and what each family turns away (R86).
-/

namespace Sys2Proof

theorem row_mem_opcodeMap (i : Instr) : i.row ∈ opcodeMap := by
  cases i <;> simp [opcodeMap, oneOfEach, Instr.row]

/-- Every instruction's word is one that its own row matches: the laws of `EncodingFitsRow` for a decoded word. -/
theorem row_matchesWord_encode (i : Instr) : i.row.matchesWord (encode i) = true := by
  open Laws.EncodingFitsRow in
  exact Instr.casesOn (motive := Statement) i cls ret jp call seImm sneImm seReg ldImm addImm ldReg orReg andReg xorReg
    addReg sub shr shl sneReg ldI rnd drw skp sknp ldVxDt ldVxK ldDtVx ldStVx addIVx ldFVx ldBVx ldMemVx ldVxMem

/-! What a row that matches fixes, for each of the map's masks; `m` is the row's match. -/

section
variable {w m : Word} {f n : BitVec 4} {nn : Byte}

theorem famOf_of_and_F000 (h : w &&& 0xF000 = m) (hf : famOf m = f) : famOf w = f := by
  rw [← hf, ← h, famOf_and]
  exact (BitVec.and_allOnes (x := famOf w)).symm

theorem fields_of_and_F00F (h : w &&& 0xF00F = m) (hf : famOf m = f) (hn : nOf m = n) : famOf w = f ∧ nOf w = n := by
  rw [← hf, ← hn, ← h, famOf_and, nOf_and]
  exact ⟨(BitVec.and_allOnes (x := famOf w)).symm, (BitVec.and_allOnes (x := nOf w)).symm⟩

theorem fields_of_and_F0FF (h : w &&& 0xF0FF = m) (hf : famOf m = f) (hnn : nnOf m = nn) :
    famOf w = f ∧ nnOf w = nn := by
  rw [← hf, ← hnn, ← h, famOf_and, nnOf_and]
  exact ⟨(BitVec.and_allOnes (x := famOf w)).symm, (BitVec.and_allOnes (x := nnOf w)).symm⟩

end

/-- A word that a row matches decodes to an instruction of that row. One case per mask: the mask fixes the fields that
the decoder tests. -/
theorem decode_of_row_matchesWord {w : Word} (j : Instr) (h : j.row.matchesWord w = true) :
    ∃ i, decode w = .ok i ∧ i.row = j.row := by
  have h := beq_iff_eq.mp h
  cases j
  all_goals dsimp only [Instr.row] at h
  case cls | ret =>
    have hw : w = _ := (BitVec.and_allOnes (x := w)).symm.trans h
    exact ⟨_, hw ▸ rfl, rfl⟩
  case jp => exact ⟨_, decode_family1 (famOf_of_and_F000 h rfl), rfl⟩
  case call => exact ⟨_, decode_family2 (famOf_of_and_F000 h rfl), rfl⟩
  case seImm => exact ⟨_, decode_family3 (famOf_of_and_F000 h rfl), rfl⟩
  case sneImm => exact ⟨_, decode_family4 (famOf_of_and_F000 h rfl), rfl⟩
  case ldImm => exact ⟨_, decode_family6 (famOf_of_and_F000 h rfl), rfl⟩
  case addImm => exact ⟨_, decode_family7 (famOf_of_and_F000 h rfl), rfl⟩
  case ldI => exact ⟨_, decode_familyA (famOf_of_and_F000 h rfl), rfl⟩
  case rnd => exact ⟨_, decode_familyC (famOf_of_and_F000 h rfl), rfl⟩
  case drw => exact ⟨_, decode_familyD (famOf_of_and_F000 h rfl), rfl⟩
  case seReg =>
    obtain ⟨hf, hn⟩ := fields_of_and_F00F h rfl rfl
    exact ⟨_, (decode_family5 hf).trans (if_pos hn), rfl⟩
  case sneReg =>
    obtain ⟨hf, hn⟩ := fields_of_and_F00F h rfl rfl
    exact ⟨_, (decode_family9 hf).trans (if_pos hn), rfl⟩
  case ldReg | orReg | andReg | xorReg | addReg | sub | shr | shl =>
    obtain ⟨hf, hn⟩ := fields_of_and_F00F h rfl rfl
    exact ⟨_, (decode_family8 hf).trans (congrArg (decodeFamily8 _ _) hn), rfl⟩
  case skp | sknp =>
    obtain ⟨hf, hnn⟩ := fields_of_and_F0FF h rfl rfl
    exact ⟨_, (decode_familyE hf).trans (congrArg (decodeFamilyE _) hnn), rfl⟩
  case ldVxDt | ldVxK | ldDtVx | ldStVx | addIVx | ldFVx | ldBVx | ldMemVx | ldVxMem =>
    obtain ⟨hf, hnn⟩ := fields_of_and_F0FF h rfl rfl
    exact ⟨_, (decode_familyF hf).trans (congrArg (decodeFamilyF _) hnn), rfl⟩

/-- A row of the opcode map matches a word exactly when the word decodes to an instruction of that row. -/
theorem matchesWord_iff_decode {w : Word} {r : OpcodeRow} (hr : r ∈ opcodeMap) :
    r.matchesWord w = true ↔ ∃ i, decode w = .ok i ∧ i.row = r := by
  constructor
  · intro h
    obtain ⟨j, -, rfl⟩ := List.mem_map.mp hr
    exact decode_of_row_matchesWord j h
  · rintro ⟨i, hi, rfl⟩
    exact encode_of_decode hi ▸ row_matchesWord_encode i

theorem legalWord_iff_decode (w : Word) : legalWord w = true ↔ ∃ i, decode w = .ok i := by
  rw [legalWord, List.any_eq_true]
  constructor
  · rintro ⟨r, hr, h⟩
    obtain ⟨i, hi, -⟩ := (matchesWord_iff_decode hr).mp h
    exact ⟨i, hi⟩
  · rintro ⟨i, hi⟩
    exact ⟨i.row, row_mem_opcodeMap i, (matchesWord_iff_decode (row_mem_opcodeMap i)).mpr ⟨i, hi, rfl⟩⟩

theorem decodeFamily8_eq_error_iff (x y : Reg) (n : BitVec 4) (e : DecodeError) :
    decodeFamily8 x y n = .error e ↔
      .family8 = e ∧ n ∈ [0x7#4, 0x8#4, 0x9#4, 0xA#4, 0xB#4, 0xC#4, 0xD#4, 0xF#4] := by
  rcases nibble_cases n with
    rfl | rfl | rfl | rfl | rfl | rfl | rfl | rfl | rfl | rfl | rfl | rfl | rfl | rfl | rfl | rfl
  all_goals simp [decodeFamily8]

/-- A test of the decoder refuses a word when the word fails it and what follows refuses the word. -/
theorem ite_ok_eq_error_iff {c : Prop} [Decidable c] (i : Instr) (r : Except DecodeError Instr) (e : DecodeError) :
    (if c then .ok i else r) = .error e ↔ ¬ c ∧ r = .error e := by
  split_ifs with hc
  all_goals simp [hc]

theorem decodeFamilyE_eq_error_iff (x : Reg) (nn : Byte) (e : DecodeError) :
    decodeFamilyE x nn = .error e ↔ .familyE = e ∧ nn ∉ [0x9E#8, 0xA1#8] := by
  simp [decodeFamilyE, ite_ok_eq_error_iff, and_assoc, and_comm (a := DecodeError.familyE = e)]

theorem decodeFamilyF_eq_error_iff (x : Reg) (nn : Byte) (e : DecodeError) :
    decodeFamilyF x nn = .error e ↔
      .familyF = e ∧ nn ∉ [0x07#8, 0x0A#8, 0x15#8, 0x18#8, 0x1E#8, 0x29#8, 0x33#8, 0x55#8, 0x65#8] := by
  simp [decodeFamilyF, ite_ok_eq_error_iff, and_assoc, and_comm (a := DecodeError.familyF = e)]

end Sys2Proof
end

section
open Sys2Proof Sys2Proof.Machine

/-- Settles O3: a row matches a word exactly when the word decodes to an instruction of that row, and a word decodes
to one instruction at most. -/
theorem decodeAgreesWithTheOpcodeMap : Obligations.DecodeAgreesWithTheOpcodeMap := by
  intro w
  cases hd : decode w with
  | ok i =>
    refine .inl ⟨i, rfl, (legalWord_iff_decode w).mpr ⟨i, hd⟩, fun r hr => ?_⟩
    simp [matchesWord_iff_decode hr, hd, eq_comm]
  | error e =>
    refine .inr ⟨e, rfl, Bool.eq_false_iff.mpr ?_, fun r hr => Bool.eq_false_iff.mpr ?_⟩
    · simp [legalWord_iff_decode, hd]
    · simp [matchesWord_iff_decode hr, hd]

/-- Settles O4, family by family: each has its own error, raised by the fields that it tests. -/
theorem illegalWordsAreThoseOfTheTable : Obligations.IllegalWordsAreThoseOfTheTable := by
  intro w
  rcases nibble_cases (famOf w) with hf | hf | hf | hf | hf | hf | hf | hf | hf | hf | hf | hf | hf | hf | hf | hf
  · simp [hf, decode_family0 hf, ite_ok_eq_error_iff]
  · simp [hf, decode_family1 hf]
  · simp [hf, decode_family2 hf]
  · simp [hf, decode_family3 hf]
  · simp [hf, decode_family4 hf]
  · simp [hf, decode_family5 hf, ite_ok_eq_error_iff]
  · simp [hf, decode_family6 hf]
  · simp [hf, decode_family7 hf]
  · simp [hf, decode_family8 hf, decodeFamily8_eq_error_iff]
  · simp [hf, decode_family9 hf, ite_ok_eq_error_iff]
  · simp [hf, decode_familyA hf]
  · simp [hf, decode_familyB hf]
  · simp [hf, decode_familyC hf]
  · simp [hf, decode_familyD hf]
  · simp [hf, decode_familyE hf, decodeFamilyE_eq_error_iff]
  · simp [hf, decode_familyF hf, decodeFamilyF_eq_error_iff]

end

section
/-! SUPPORT. The updates that leave the register file alone leave every register (spec/10_state.md R21). -/

namespace Sys2Proof.Machine

variable (s : State) (r : Reg)

@[simp] theorem State.setMem_reg (m : Memory) : (s.setMem m).reg r = s.reg r := rfl
@[simp] theorem State.setI_reg (a : Word) : (s.setI a).reg r = s.reg r := rfl
@[simp] theorem State.setPc_reg (a : Word) : (s.setPc a).reg r = s.reg r := rfl
@[simp] theorem State.setStack_reg (k : Vector Word 16) (p : Fin 17) : (s.setStack k p).reg r = s.reg r := rfl
@[simp] theorem State.setDt_reg (b : Byte) : (s.setDt b).reg r = s.reg r := rfl
@[simp] theorem State.setSt_reg (b : Byte) : (s.setSt b).reg r = s.reg r := rfl
@[simp] theorem State.setKey_reg (k : Reg) (b : Bool) : (s.setKey k b).reg r = s.reg r := rfl
@[simp] theorem State.setFb_reg (f : Framebuffer) : (s.setFb f).reg r = s.reg r := rfl
@[simp] theorem State.setNeedsRender_reg (b : Bool) : (s.setNeedsRender b).reg r = s.reg r := rfl
@[simp] theorem State.setRunState_reg (q : RunState) : (s.setRunState q).reg r = s.reg r := rfl
@[simp] theorem State.setWaitReg_reg (x : Reg) : (s.setWaitReg x).reg r = s.reg r := rfl
@[simp] theorem State.setLoaded_reg (b : Bool) : (s.setLoaded b).reg r = s.reg r := rfl
@[simp] theorem State.setDraws_reg (n : Nat) : (s.setDraws n).reg r = s.reg r := rfl
@[simp] theorem State.faultIn_reg (i : Instr) (c : Cause) (a : Word) : (s.faultIn i c a).reg r = s.reg r := rfl
@[simp] theorem State.beforeFetch_reg : s.beforeFetch.reg r = s.reg r := rfl
@[simp] theorem State.advancePc_reg : s.advancePc.reg r = s.reg r := rfl
@[simp] theorem State.skipIf_reg (c : Bool) : (s.skipIf c).reg r = s.reg r := by cases c <;> rfl

end Sys2Proof.Machine
end

section
/-! SUPPORT. What the execution of an instruction can do, once: a fault of the instruction that writes nothing else,
or the fields that spec/10_state.md sections 2, 6 and 9 list for it. -/

namespace Sys2Proof.Machine

/-- `t` is a state that instruction `i` can leave `s` in without a fault: each field is as before unless the spec
lists the instruction for it, and the memory keeps its form. -/
structure ExecFrame (i : Instr) (s t : State) : Prop where
  reg : ∀ r, ¬ WritesReg i r → t.reg r = s.reg r
  index : t.i ≠ s.i → (∃ a, i = .ldI a) ∨ (∃ x, i = .addIVx x) ∨ ∃ x, i = .ldFVx x
  pc : t.pc ≠ s.pc → i = .ret ∨ (∃ a, i = .jp a) ∨ (∃ a, i = .call a) ∨ (∃ x n, i = .seImm x n) ∨
    (∃ x n, i = .sneImm x n) ∨ (∃ x y, i = .seReg x y) ∨ (∃ x y, i = .sneReg x y) ∨ (∃ x, i = .skp x) ∨ ∃ x, i = .sknp x
  sp : t.sp ≠ s.sp → i = .ret ∨ ∃ a, i = .call a
  stack : t.stack ≠ s.stack → ∃ a, i = .call a
  dt : t.dt ≠ s.dt → ∃ x, i = .ldDtVx x
  st : t.st ≠ s.st → ∃ x, i = .ldStVx x
  keys : t.keys = s.keys
  fb : t.fb ≠ s.fb → i = .cls ∨ ∃ x y n, i = .drw x y n
  needsRender : t.needsRender ≠ s.needsRender → i = .cls ∨ ∃ x y n, i = .drw x y n
  waitReg : t.waitReg ≠ s.waitReg → ∃ x, i = .ldVxK x
  runState : t.runState = s.runState ∨ (t.runState = .awaitingKey ∧ ∃ x, i = .ldVxK x)
  fault : t.fault = s.fault
  mem : t.mem ≠ s.mem → (∃ x, i = .ldBVx x) ∨ ∃ x, i = .ldMemVx x
  memWf : s.mem.wf → t.mem.wf
  loaded : t.loaded = s.loaded
  params : t.params = s.params
  draws : t.draws ≠ s.draws → ∃ x n, i = .rnd x n

/-! The frames of the updates that several instructions share. -/

section
variable {i : Instr} {s : State}

theorem ExecFrame.setReg {x : Reg} (hx : WritesReg i x) (b : Byte) : ExecFrame i s (s.setReg x b) := by
  constructor
  case reg =>
    intro r hr
    exact State.reg_setReg_of_ne s b fun e => hr (e ▸ hx)
  all_goals simp

theorem ExecFrame.setResultAndFlag {x : Reg} (hx : WritesReg i x) (hf : WritesReg i 0xF) (b c : Byte) :
    ExecFrame i s (s.setResultAndFlag x b c) := by
  constructor
  case reg =>
    intro r hr
    have hrf : r ≠ 0xF := fun e => hr (e ▸ hf)
    have hrx : r ≠ x := fun e => hr (e ▸ hx)
    rw [State.reg_setResultAndFlag, if_neg hrf, if_neg hrx]
  all_goals simp

theorem ExecFrame.setMem_writeBytes (hi : (∃ x, i = .ldBVx x) ∨ ∃ x, i = .ldMemVx x) (a : Nat) (bs : List Byte) :
    ExecFrame i s (s.setMem (s.mem.writeBytes a bs)) := by
  constructor
  case mem => exact fun _ => hi
  case memWf => exact Memory.wf_writeBytes a bs
  all_goals simp

end

/-- A bulk load from register 0 on reads back as its bytes, and leaves the registers after them (R201). -/
theorem State.reg_setV_writeRegs (s : State) (bs : List Byte) (r : Reg) :
    (s.setV (writeRegs s.v 0 bs)).reg r = if r.toNat < bs.length then bs.getD r.toNat 0 else s.reg r := by
  simp [State.reg, writeRegs_getElem]

theorem State.reg_setV_writeRegs_of_ge (s : State) {bs : List Byte} {r : Reg} (h : bs.length ≤ r.toNat) :
    (s.setV (writeRegs s.v 0 bs)).reg r = s.reg r := by
  rw [State.reg_setV_writeRegs, if_neg (by omega)]

/-- The two ways an instruction goes: a fault, of a cause that an instruction can have, with nothing else written; or
the writes that the spec lists for it. -/
theorem exec_cases (i : Instr) (s : State) :
    (∃ c a, exec i s = .next (s.faultIn i c a) ∧ c ≠ .none ∧ c ≠ .decode) ∨
    ∃ t, exec i s = .next t ∧ ExecFrame i s t := by
  cases i with
  | ldImm x nn => exact .inr ⟨_, exec_ldImm x nn s, .setReg (by exact rfl) _⟩
  | addImm x nn => exact .inr ⟨_, exec_addImm x nn s, .setReg (by exact rfl) _⟩
  | ldReg x y => exact .inr ⟨_, exec_ldReg x y s, .setReg (by exact rfl) _⟩
  | orReg x y => exact .inr ⟨_, exec_orReg x y s, .setReg (by exact rfl) _⟩
  | andReg x y => exact .inr ⟨_, exec_andReg x y s, .setReg (by exact rfl) _⟩
  | xorReg x y => exact .inr ⟨_, exec_xorReg x y s, .setReg (by exact rfl) _⟩
  | ldVxDt x => exact .inr ⟨_, exec_ldVxDt x s, .setReg (by exact rfl) _⟩
  | addReg x y => exact .inr ⟨_, exec_addReg x y s, .setResultAndFlag (by exact .inl rfl) (by exact .inr rfl) _ _⟩
  | sub x y => exact .inr ⟨_, exec_sub x y s, .setResultAndFlag (by exact .inl rfl) (by exact .inr rfl) _ _⟩
  | shr x y => exact .inr ⟨_, exec_shr x y s, .setResultAndFlag (by exact .inl rfl) (by exact .inr rfl) _ _⟩
  | shl x y => exact .inr ⟨_, exec_shl x y s, .setResultAndFlag (by exact .inl rfl) (by exact .inr rfl) _ _⟩
  | cls => exact .inr ⟨_, exec_cls s, by constructor <;> simp⟩
  | jp nnn => exact .inr ⟨_, exec_jp nnn s, by constructor <;> simp⟩
  | seImm x nn => exact .inr ⟨_, exec_seImm x nn s, by constructor <;> simp⟩
  | sneImm x nn => exact .inr ⟨_, exec_sneImm x nn s, by constructor <;> simp⟩
  | seReg x y => exact .inr ⟨_, exec_seReg x y s, by constructor <;> simp⟩
  | sneReg x y => exact .inr ⟨_, exec_sneReg x y s, by constructor <;> simp⟩
  | ldI nnn => exact .inr ⟨_, exec_ldI nnn s, by constructor <;> simp⟩
  | ldVxK x => exact .inr ⟨_, exec_ldVxK x s, by constructor <;> simp⟩
  | ldDtVx x => exact .inr ⟨_, exec_ldDtVx x s, by constructor <;> simp⟩
  | ldStVx x => exact .inr ⟨_, exec_ldStVx x s, by constructor <;> simp⟩
  | addIVx x => exact .inr ⟨_, exec_addIVx x s, by constructor <;> simp⟩
  | ldFVx x => exact .inr ⟨_, exec_ldFVx x s, by constructor <;> simp⟩
  | rnd x nn =>
    refine .inr ⟨_, exec_rnd x nn s, ?_⟩
    constructor
    case reg => exact fun r hr => State.reg_setReg_of_ne _ _ hr
    all_goals simp
  | ret =>
    rcases exec_ret_cases s with ⟨_, e⟩ | ⟨-, e⟩
    · exact .inr ⟨_, e, by constructor <;> simp⟩
    · exact .inl ⟨_, _, e, nofun, nofun⟩
  | call nnn =>
    rcases exec_call_cases nnn s with ⟨_, e⟩ | ⟨-, e⟩
    · exact .inr ⟨_, e, by constructor <;> simp⟩
    · exact .inl ⟨_, _, e, nofun, nofun⟩
  | skp x =>
    rcases skipOnKey_cases (.skp x) x true s with ⟨-, e⟩ | ⟨-, e⟩
    · exact .inr ⟨_, (exec_skp x s).trans e, by constructor <;> simp⟩
    · exact .inl ⟨_, _, (exec_skp x s).trans e, nofun, nofun⟩
  | sknp x =>
    rcases skipOnKey_cases (.sknp x) x false s with ⟨-, e⟩ | ⟨-, e⟩
    · exact .inr ⟨_, (exec_sknp x s).trans e, by constructor <;> simp⟩
    · exact .inl ⟨_, _, (exec_sknp x s).trans e, nofun, nofun⟩
  | drw x y n =>
    rcases exec_drw_cases x y n s with ⟨-, e⟩ | ⟨-, e⟩
    · refine .inr ⟨_, e, ?_⟩
      constructor
      case reg => exact fun r hr => State.reg_setReg_of_ne _ _ hr
      all_goals simp
    · exact .inl ⟨_, _, e, nofun, nofun⟩
  | ldBVx x =>
    rcases storeAtI_cases (.ldBVx x) (decimalDigits (s.reg x)) s with ⟨-, e⟩ | ⟨-, e⟩
    · exact .inr ⟨_, (exec_ldBVx x s).trans e, ExecFrame.setMem_writeBytes (.inl ⟨x, rfl⟩) _ _⟩
    · exact .inl ⟨_, _, (exec_ldBVx x s).trans e, nofun, nofun⟩
  | ldMemVx x =>
    rcases storeAtI_cases (.ldMemVx x) (s.regsUpTo x) s with ⟨-, e⟩ | ⟨-, e⟩
    · exact .inr ⟨_, (exec_ldMemVx x s).trans e, ExecFrame.setMem_writeBytes (.inr ⟨x, rfl⟩) _ _⟩
    · exact .inl ⟨_, _, (exec_ldMemVx x s).trans e, nofun, nofun⟩
  | ldVxMem x =>
    rcases exec_ldVxMem_cases x s with ⟨-, e⟩ | ⟨-, e⟩
    · refine .inr ⟨_, e, ?_⟩
      constructor
      case reg => exact fun r hr => State.reg_setV_writeRegs_of_ge s (by simpa [WritesReg] using hr)
      all_goals simp
    · exact .inl ⟨_, _, e, nofun, nofun⟩

end Sys2Proof.Machine
end

section
/-! SUPPORT. What one Step can do, from what its instruction can do (spec/40_cycle.md R100 to R106). -/

namespace Sys2Proof.Machine

theorem exec_next (i : Instr) (s : State) : ∃ t, exec i s = .next t := by
  obtain ⟨t, e, -⟩ := exec_timers i s
  exact ⟨t, e⟩

theorem step_next (s : State) : ∃ t, step s = .next t := by
  rcases step_cases_nextInstr s with ⟨-, e⟩ | ⟨-, -, _, _, _, _, _, -, e⟩ | ⟨i, -, -, e⟩
  · exact ⟨_, e⟩
  · exact ⟨_, e⟩
  · exact e ▸ exec_next i _

theorem step_of_not_running {s : State} (h : s.runState ≠ .running) : step s = .next (s.setLoaded true) := by
  rcases step_cases_nextInstr s with ⟨-, e⟩ | ⟨hr, -⟩ | ⟨_, hr, -⟩
  · exact e
  · exact absurd hr h
  · exact absurd hr h

theorem step_of_nextInstr {s : State} {i : Instr} (hr : s.runState = .running) (hn : s.nextInstr = some i) :
    step s = exec i s.beforeFetch.advancePc := by
  rcases step_cases_nextInstr s with ⟨h, -⟩ | ⟨-, h, -⟩ | ⟨j, -, hj, e⟩
  · exact absurd hr h
  · cases hn.symm.trans h
  · cases hn.symm.trans hj
    exact e

/-- The word of an instruction at PC is what the next Step runs (R104, R105). -/
theorem State.nextInstr_of_encode {s : State} {i : Instr} (hpc : s.pc.toNat + 1 ≤ 0xFFF)
    (h : s.mem.read s.pc.toNat ++ s.mem.read (s.pc.toNat + 1) = encode i) : s.nextInstr = some i := by
  refine State.nextInstr_of_decode_ok hpc ?_
  rw [wordOfBytes, h, decode_encode]

theorem State.setLoaded_true_of_loaded {s : State} (h : s.loaded = true) : s.setLoaded true = s := h ▸ rfl

/-- In every state of a run a Step outside Running changes nothing (R101). -/
theorem step_of_not_running_of_loaded {s : State} (h : s.runState ≠ .running) (hl : s.loaded = true) :
    step s = .next s := by
  rw [step_of_not_running h, State.setLoaded_true_of_loaded hl]

theorem stepOutput_of_not_running {s : State} (h : s.runState ≠ .running) : stepOutput s = ⟨false⟩ := by
  simp [stepOutput, h]

end Sys2Proof.Machine
end

section
open Sys2Proof Sys2Proof.Machine

/-- Settles O22: a fault writes only run_state and the record, and what is written without a fault is the frame. -/
theorem stateIsWrittenOnlyAsListed : Obligations.StateIsWrittenOnlyAsListed := by
  intro i s t ht
  rcases exec_cases i s with ⟨c, a, e, -, -⟩ | ⟨u, e, hf⟩
  · cases e.symm.trans ht
    simp
  · cases e.symm.trans ht
    refine ⟨hf.index, hf.pc, hf.sp, hf.stack, hf.dt, hf.st, hf.keys, hf.fb, hf.needsRender, hf.waitReg, fun h => ?_,
      fun h => absurd hf.fault h, hf.mem, hf.loaded, hf.params, hf.draws⟩
    exact .inr (hf.runState.resolve_left h).2

/-- Settles O23: a fault writes no register, and the frame names those that are written without one. -/
theorem registersAreWrittenOnlyAsNamed : Obligations.RegistersAreWrittenOnlyAsNamed := by
  intro i s t r ht hr
  rcases exec_cases i s with ⟨c, a, e, -, -⟩ | ⟨u, e, hf⟩
  · cases e.symm.trans ht
    rfl
  · cases e.symm.trans ht
    exact hf.reg r hr

/-- Settles O19, by the two ways an instruction goes. -/
theorem faultingInstructionWritesNothing : Obligations.FaultingInstructionWritesNothing := by
  intro i s t pc0 hpc hs ht
  rcases exec_cases i s with ⟨c, a, e, hnone, hdecode⟩ | ⟨u, e, hf⟩
  · cases e.symm.trans ht
    exact .inl ⟨rfl, c, a, hnone, hdecode, FaultsWith.faultIn_of_pc hpc i c a⟩
  · cases e.symm.trans ht
    refine .inr ⟨?_, hf.fault⟩
    rcases hf.runState with h | ⟨h, -⟩
    · exact fun hfaulted => hs (h ▸ hfaulted)
    · exact fun hfaulted => nomatch h.symm.trans hfaulted

/-- Settles O11: every arm of exec answers a next state, and so does each way a Step goes. -/
theorem everyStepAnswersANextState : Obligations.EveryStepAnswersANextState := ⟨exec_next, step_next⟩

/-- Settles O10: outside Running a Step sets `loaded` alone, which the invariants say is set. -/
theorem stepOutsideRunningChangesNothing : Obligations.StepOutsideRunningChangesNothing := by
  intro s hr
  refine ⟨step_of_not_running hr, fun ⟨_, _, _, hloaded⟩ => ?_, ?_⟩
  · exact step_of_not_running_of_loaded hr (hloaded hr)
  · rw [stepOutput_of_not_running hr]

end

section
/-! SUPPORT. The invariants of a run (spec/10_state.md sections 8 and 9): how they read in Faulted and outside it, and
that Reset, a Step and every other transaction keep them. -/

namespace Sys2Proof.Machine

/-- Outside Faulted the record is the clear one. -/
theorem State.inv_of_noFault {s : State} (hmem : s.mem.wf) (hs : s.NoFault) (hfault : s.fault = FaultRecord.clear)
    (hloaded : s.runState ≠ .running → s.loaded = true) : s.Inv := by
  refine ⟨hmem, ⟨fun _ => hs, fun _ => ?_⟩, fun _ => hfault, hloaded⟩
  rw [hfault, FaultRecord.clear]

/-- A fault, of a cause that is one, after the load window has closed. -/
theorem State.inv_raiseFault {s : State} (hmem : s.mem.wf) (hloaded : s.loaded = true) {c : Cause} (hc : c ≠ .none)
    (p w a : Word) : (s.raiseFault c p w a).Inv :=
  ⟨hmem, ⟨fun h => absurd h hc, fun h => absurd rfl h⟩, fun h => absurd rfl h, fun _ => hloaded⟩

theorem State.Inv.setLoaded_true {s : State} (h : s.Inv) : (s.setLoaded true).Inv := by
  obtain ⟨hmem, hcause, hclear, -⟩ := h
  exact ⟨hmem, hcause, hclear, fun _ => rfl⟩

theorem State.Inv.loaded_of_not_running {s : State} (h : s.Inv) (hr : s.runState ≠ .running) : s.loaded = true := by
  obtain ⟨-, -, -, hloaded⟩ := h
  exact hloaded hr

/-- The invariants speak of memory, run state, fault record and `loaded` alone. -/
theorem State.Inv.congr {s t : State} (h : s.Inv) (hmem : t.mem = s.mem) (hrun : t.runState = s.runState)
    (hfault : t.fault = s.fault) (hloaded : t.loaded = s.loaded) : t.Inv := by
  unfold State.Inv State.NoFault at h ⊢
  rwa [hmem, hrun, hfault, hloaded]

/-- Executing an instruction keeps the invariants once the Step has closed the load window. -/
theorem exec_keeps_inv {i : Instr} {s t : State} (hs : s.Inv) (hf : s.NoFault) (hl : s.loaded = true)
    (ht : exec i s = .next t) : t.Inv := by
  obtain ⟨hmem, -, hclear, -⟩ := hs
  rcases exec_cases i s with ⟨c, a, e, hc, -⟩ | ⟨u, e, hu⟩
  · cases e.symm.trans ht
    exact State.inv_raiseFault hmem hl hc _ _ _
  · cases e.symm.trans ht
    refine State.inv_of_noFault (hu.memWf hmem) ?_ (hu.fault.trans (hclear hf)) fun _ => hu.loaded.trans hl
    rcases hu.runState with h | ⟨h, -⟩
    · exact fun hfaulted => hf (h ▸ hfaulted)
    · exact fun hfaulted => nomatch h.symm.trans hfaulted

/-- The parts of a Running Step before the instruction keep the invariants. -/
theorem State.Inv.beforeFetch {s : State} (h : s.Inv) : s.beforeFetch.Inv :=
  h.setLoaded_true.congr rfl rfl rfl rfl

theorem step_keeps_inv {s t : State} (hs : s.Inv) (ht : step s = .next t) : t.Inv := by
  have ⟨hmem, _⟩ := hs
  rcases step_cases s with ⟨-, e⟩ | ⟨-, -, e⟩ | ⟨w, _, -, -, -, -, e⟩ | ⟨w, i, hr, -, -, -, e⟩
  · cases e.symm.trans ht
    exact hs.setLoaded_true
  · cases e.symm.trans ht
    exact State.inv_raiseFault (s := s.beforeFetch) hmem rfl (c := .address) nofun _ _ _
  · cases e.symm.trans ht
    exact State.inv_raiseFault (s := s.beforeFetch.advancePc) hmem rfl (c := .decode) nofun _ _ _
  · have hrun : s.beforeFetch.advancePc.runState = .running := hr
    have hinv : s.beforeFetch.advancePc.Inv := hs.beforeFetch.congr rfl rfl rfl rfl
    exact exec_keeps_inv hinv (fun h => nomatch hrun.symm.trans h) rfl (e.symm.trans ht)

theorem State.reset_inv : State.reset.Inv := State.inv_of_noFault State.reset_mem_wf nofun rfl fun h => absurd rfl h

theorem State.construct_inv (p : Params) : (State.construct p).Inv :=
  State.inv_of_noFault (Memory.wf_writeBytes _ _ State.reset_mem_wf) nofun rfl fun h => absurd rfl h

theorem setKey_keeps_inv {s : State} (hs : s.Inv) (k : Reg) (pressed : Bool) : (setKey k pressed s).Inv := by
  rcases setKey_cases k pressed s with ⟨-, e⟩ | ⟨-, -, e⟩ | ⟨hr, -, -, e⟩
  · rw [e]
    exact hs
  · rw [e]
    exact hs.congr rfl rfl rfl rfl
  · obtain ⟨hmem, -, hclear, -⟩ := hs
    have hf : s.NoFault := fun h => nomatch hr.symm.trans h
    rw [e]
    exact State.inv_of_noFault hmem nofun (hclear hf) fun h => absurd rfl h

theorem loadImage_keeps_inv {s t : State} {image : Option (List Byte)} {r : LoadResult} (hs : s.Inv)
    (ht : loadImage image s = some (r, t)) : t.Inv := by
  rcases loadImage_cases image s with ⟨-, e⟩ | ⟨-, -, e⟩ | ⟨b, -, -, -, e⟩
  · cases e.symm.trans ht
  · cases e.symm.trans ht
    exact hs
  · cases e.symm.trans ht
    obtain ⟨hmem, hcause, hclear, -⟩ := hs
    exact ⟨Memory.wf_writeBytes _ _ hmem, hcause, hclear, fun _ => rfl⟩

end Sys2Proof.Machine
end

section
/-! SUPPORT. What a transaction of the host can do, and how the transactions of a run follow each other
(spec/60_exceptions.md R240 to R242). -/

namespace Sys2Proof.Machine

theorem transact_cases {tr : Transaction} {s t : State} {r : Response} (h : transact tr s = some (r, t)) :
    (tr = .reset ∧ t = resetCore s) ∨ (∃ image a, tr = .load image ∧ loadImage image s = some (a, t)) ∨
    (tr = .step ∧ step s = .next t) ∨ (∃ k pressed, tr = .setKey k pressed ∧ t = setKey k pressed s) ∨ t = s := by
  cases tr with
  | reset =>
    cases h
    exact .inl ⟨rfl, rfl⟩
  | load image =>
    rcases loadImage_cases image s with ⟨-, e⟩ | ⟨-, -, e⟩ | ⟨b, -, -, -, e⟩
    all_goals
      simp only [transact, e] at h
      cases h
    · exact .inr (.inl ⟨image, _, rfl, e⟩)
    · exact .inr (.inl ⟨image, _, rfl, e⟩)
  | step => exact .inr (.inr (.inl ⟨rfl, (transact_step h).1⟩))
  | setKey k pressed =>
    cases h
    exact .inr (.inr (.inr (.inl ⟨k, pressed, rfl, rfl⟩)))
  | readFramebuffer | readNeedsRender | readStatus =>
    cases h
    exact .inr (.inr (.inr (.inr rfl)))

theorem transact_of_step {s t : State} (h : step s = .next t) : transact .step s = some (.step (stepOutput s), t) := by
  simp only [transact, h]

theorem runTransactions_cons {tr : Transaction} {trs : List Transaction} {s t u : State} {r : Response}
    {rs : List Response} (h : transact tr s = some (r, t)) (hrun : runTransactions trs t = some (rs, u)) :
    runTransactions (tr :: trs) s = some (r :: rs, u) := by
  simp only [runTransactions, h, hrun]

theorem runTransactions_cons_inv {tr : Transaction} {trs : List Transaction} {s u : State} {rs : List Response}
    (h : runTransactions (tr :: trs) s = some (rs, u)) :
    ∃ r t rs', transact tr s = some (r, t) ∧ runTransactions trs t = some (rs', u) ∧ rs = r :: rs' := by
  simp only [runTransactions] at h
  split at h
  · cases h
  · next r t ht =>
    split at h
    · cases h
    · next rs' u' hu =>
      cases h
      exact ⟨r, t, rs', ht, hu, rfl⟩

theorem step_keeps_params {s t : State} (ht : step s = .next t) : t.params = s.params := by
  rcases step_cases_nextInstr s with ⟨-, e⟩ | ⟨-, -, u, _, _, _, _, hu, e⟩ | ⟨i, -, -, e⟩
  · cases e.symm.trans ht
    rfl
  · cases e.symm.trans ht
    rcases hu with rfl | rfl
    · rfl
    · rfl
  · obtain ⟨-, -, -, -, -, -, -, -, -, -, -, -, -, -, hparams, -⟩ :=
      stateIsWrittenOnlyAsListed i s.beforeFetch.advancePc t (e.symm.trans ht)
    exact hparams

theorem setKey_keeps_params (k : Reg) (pressed : Bool) (s : State) : (setKey k pressed s).params = s.params := by
  rcases setKey_cases k pressed s with ⟨-, e⟩ | ⟨-, -, e⟩ | ⟨-, -, -, e⟩
  all_goals simp [e]

/-- A Load has a move only while the load window is open, and writes memory and `loaded` alone. -/
theorem loadImage_frame {image : Option (List Byte)} {s t : State} {a : LoadResult}
    (h : loadImage image s = some (a, t)) : s.loaded = false ∧ t = { s with mem := t.mem, loaded := t.loaded } := by
  rcases loadImage_cases image s with ⟨-, e⟩ | ⟨hl, -, e⟩ | ⟨b, hl, -, -, e⟩
  · cases e.symm.trans h
  · cases e.symm.trans h
    exact ⟨hl, rfl⟩
  · cases e.symm.trans h
    exact ⟨hl, rfl⟩

theorem transact_keeps_faulted {tr : Transaction} {s t : State} {r : Response} (hs : s.Inv) (hr : s.runState = .faulted)
    (htr : tr ≠ .reset) (h : transact tr s = some (r, t)) : t = s := by
  have hrun : s.runState ≠ .running := fun e => nomatch hr.symm.trans e
  have hl := hs.loaded_of_not_running hrun
  rcases transact_cases h with ⟨rfl, -⟩ | ⟨image, a, -, e⟩ | ⟨-, e⟩ | ⟨k, pressed, -, rfl⟩ | rfl
  · exact absurd rfl htr
  · cases hl.symm.trans (loadImage_frame e).1
  · cases (step_of_not_running_of_loaded hrun hl).symm.trans e
    rfl
  · rcases setKey_cases k pressed s with ⟨-, e⟩ | ⟨hne, -⟩ | ⟨hw, -⟩
    · exact e
    · exact absurd hr hne
    · cases hr.symm.trans hw
  · rfl

/-- A new press in the wait puts the key into V[wait_reg] and goes back to Running (R116). -/
theorem setKey_of_press {s : State} {k : Reg} (hw : s.runState = .awaitingKey) (hk : s.key k = false) :
    setKey k true s = ((s.setKey k true).setReg s.waitReg (zext8 k)).setRunState .running := by
  rcases setKey_cases k true s with ⟨hf, -⟩ | ⟨-, hno, -⟩ | ⟨-, -, -, e⟩
  · cases hw.symm.trans hf
  · exact absurd ⟨hw, hk, rfl⟩ hno
  · exact e

/-- Any other report outside Faulted writes the key alone. -/
theorem setKey_of_no_press {s : State} {k : Reg} {pressed : Bool} (hf : s.runState ≠ .faulted)
    (h : s.runState = .running ∨ s.key k = true ∨ pressed = false) : setKey k pressed s = s.setKey k pressed := by
  rcases setKey_cases k pressed s with ⟨hf', -⟩ | ⟨-, -, e⟩ | ⟨hw, hk, hp, -⟩
  · exact absurd hf' hf
  · exact e
  · simp [hw, hk, hp] at h

/-- A key index keeps its value in a register. -/
theorem zext8_toNat {n : Nat} (h : n ≤ 8) (k : BitVec n) : (zext8 k).toNat = k.toNat := BitVec.toNat_setWidth_of_le h

/-- Steps in the wait change nothing and report nothing (R101). -/
theorem runTransactions_replicate_step_of_not_running {s : State} (h : s.runState ≠ .running) (hl : s.loaded = true)
    (n : Nat) : runTransactions (List.replicate n .step) s =
      some (List.replicate n (.step { soundStopped := false }), s) := by
  have htr : transact .step s = some (.step { soundStopped := false }, s) := by
    rw [transact_of_step (step_of_not_running_of_loaded h hl), stepOutput_of_not_running h]
  induction n with
  | zero => rfl
  | succ n ih => exact runTransactions_cons htr ih

/-- A Step reports SoundStopped exactly when its decay takes ST from 1 to 0 (R107). -/
theorem stepOutput_of_running {s : State} (h : s.runState = .running) :
    stepOutput s = { soundStopped := decide (s.st.toNat = 1) } := by
  have hst : (s.st ≠ 0 ∧ decayTimer s.st = 0) ↔ s.st.toNat = 1 := by
    rw [ne_eq, ← BitVec.toNat_inj, ← BitVec.toNat_inj, decayTimer_toNat]
    show ¬ s.st.toNat = 0 ∧ s.st.toNat - 1 = 0 ↔ _
    omega
  simp only [stepOutput, h, true_and, hst]

end Sys2Proof.Machine
end

section
open Sys2Proof Sys2Proof.Machine

/-- Settles O15: memory after Reset is the font written into a canonical memory, and no fault has happened. -/
theorem resetMeetsTheInvariants : Obligations.ResetMeetsTheInvariants := ⟨State.reset_inv, State.construct_inv⟩

/-- Settles O16, by the ways a Step goes: the load window closes first, and a fault writes its record with its run
state. -/
theorem everyStepKeepsTheInvariants : Obligations.EveryStepKeepsTheInvariants := fun _ _ => step_keeps_inv

/-- Settles O17, transaction by transaction. -/
theorem everyTransactionKeepsTheInvariants : Obligations.EveryTransactionKeepsTheInvariants := by
  intro tr s t r hs h
  rcases transact_cases h with ⟨-, rfl⟩ | ⟨image, a, -, e⟩ | ⟨-, e⟩ | ⟨k, pressed, -, rfl⟩ | rfl
  · exact (State.construct_inv s.params).congr rfl rfl rfl rfl
  · exact loadImage_keeps_inv hs e
  · exact step_keeps_inv hs e
  · exact setKey_keeps_inv hs k pressed
  · exact hs

/-- Settles O18, transaction by transaction. -/
theorem parametersNeverChange : Obligations.ParametersNeverChange := by
  intro tr s t r h
  rcases transact_cases h with ⟨-, rfl⟩ | ⟨image, a, -, e⟩ | ⟨-, e⟩ | ⟨k, pressed, -, rfl⟩ | rfl
  · rfl
  · rw [(loadImage_frame e).2]
  · exact step_keeps_params e
  · exact setKey_keeps_params k pressed s
  · rfl

/-- Settles O20, by induction over the transactions: none but Reset has an effect in Faulted. -/
theorem faultedIsTerminal : Obligations.FaultedIsTerminal := by
  intro trs
  induction trs with
  | nil =>
    rintro s t rs - - - h
    cases h
    rfl
  | cons tr trs ih =>
    intro s t rs hs hr hreset h
    obtain ⟨r, u, rs', htr, hrun, -⟩ := runTransactions_cons_inv h
    have htr' : tr ≠ .reset := fun e => hreset (e ▸ List.mem_cons_self)
    obtain rfl := transact_keeps_faulted hs hr htr' htr
    exact ih u t rs' hs hr (fun hmem => hreset (List.mem_cons_of_mem tr hmem)) hrun

/-- Settles O21: of the transactions that have an effect in the wait, Load and Step keep the run state. -/
theorem onlyAPressEndsTheWait : Obligations.OnlyAPressEndsTheWait := by
  intro tr s t r hw h hleft
  rcases transact_cases h with ⟨rfl, -⟩ | ⟨image, a, -, e⟩ | ⟨-, e⟩ | ⟨k, pressed, rfl, rfl⟩ | rfl
  · exact .inl rfl
  · rw [(loadImage_frame e).2] at hleft
    exact absurd hw hleft
  · cases (step_of_not_running fun hr => nomatch hw.symm.trans hr).symm.trans e
    exact absurd hw hleft
  · rcases setKey_cases k pressed s with ⟨hf, -⟩ | ⟨-, -, e⟩ | ⟨-, hk, rfl, -⟩
    · cases hw.symm.trans hf
    · rw [e] at hleft
      exact absurd hw hleft
    · exact .inr ⟨k, rfl, hk⟩
  · exact absurd hw hleft

end

section
open Sys2Proof Sys2Proof.Machine

/-- Settles O13, by induction over the Steps: the first one decays ST by one (O12) and reports SoundStopped when ST
was 1, and the run goes on from the state it leaves. -/
theorem soundTimerStopsExactlyOnce : Obligations.SoundTimerStopsExactlyOnce := by
  intro n
  induction n with
  | zero =>
    intro s _
    refine ⟨[], s, rfl, rfl, ?_⟩
    rw [if_neg (by omega)]
    rfl
  | succ n ih =>
    intro s halone
    obtain ⟨hr, hst⟩ := halone 0 n.succ_pos [] s rfl
    obtain ⟨u, hstep, -, htimers⟩ := timersDecayOncePerRunningStep s
    obtain ⟨-, hdecay, -⟩ := htimers hr
    have hu : u.st.toNat = s.st.toNat - 1 := hdecay hst
    have htr := transact_of_step hstep
    obtain ⟨rs, t, hrun, ht, hcount⟩ := ih u fun k hk rs t hrun =>
      halone (k + 1) (Nat.succ_lt_succ hk) _ t (runTransactions_cons htr hrun)
    refine ⟨_, t, runTransactions_cons htr hrun, by omega, ?_⟩
    rw [stepOutput_of_running hr, List.count_cons, hcount, hu]
    by_cases h1 : s.st.toNat = 1
    · simp [h1]
    · simp only [h1, decide_false, beq_iff_eq, Response.step.injEq, StepOutput.mk.injEq, Bool.false_eq_true, if_false]
      exact if_congr (by omega) rfl rfl

/-- Settles O51: the wait is a fixed point of Step, and a new press ends it in the state that `setKey_of_press` gives.
-/
theorem keyWaitGatesEveryStep : Obligations.KeyWaitGatesEveryStep := by
  intro x s hl
  refine ⟨_, exec_ldVxK x s, fun n => ⟨?_, fun k hk => ?_⟩⟩
  · have hwait : ((s.setWaitReg x).setRunState .awaitingKey).runState ≠ .running := nofun
    exact runTransactions_replicate_step_of_not_running hwait hl n
  · refine ⟨_, congrArg (fun u => some (Response.nothing, u)) (setKey_of_press rfl hk), ?_, fun r hr => ?_, rfl,
      ?_, rfl⟩
    · rw [State.setRunState_reg, State.setRunState_waitReg, State.setWaitReg_waitReg, State.reg_setReg_same,
        zext8_toNat (by decide)]
    · exact State.reg_setReg_of_ne _ _ hr
    · exact State.key_setKey s k true

end

section
/-! SUPPORT. The state in which a Running Step fetches and executes, as the spec's pseudocode writes it
(spec/40_cycle.md R100 to R104). -/

namespace Sys2Proof.Machine

theorem decayTimer_eq (t : Byte) : decayTimer t = BitVec.ofNat 8 (t.toNat - 1) := by
  rw [← decayTimer_toNat, BitVec.ofNat_toNat, BitVec.setWidth_eq]

theorem State.beforeFetch_eq (s : State) : s.beforeFetch = { s with
    loaded := true
    needsRender := false
    dt := BitVec.ofNat 8 (s.dt.toNat - 1)
    st := BitVec.ofNat 8 (s.st.toNat - 1) } := by
  rw [← decayTimer_eq, ← decayTimer_eq]
  rfl

/-- The lowest address out of range of an access at `a` that goes beyond 0xFFF (R104, R173). -/
theorem firstOutOfRange_eq (a : Word) : firstOutOfRange a.toNat = if 0xFFF < a.toNat then a else 0x1000 := by
  unfold firstOutOfRange Config.memSize
  split_ifs with ha
  · rw [Nat.max_eq_left ha, BitVec.ofNat_toNat, BitVec.setWidth_eq]
  · rw [Nat.max_eq_right (by omega)]
    rfl

/-- Of the two addresses that a fetch reads, the lowest out of range is PC or the one after it (R104). -/
theorem firstOutOfRange_of_fetch {pc : Word} (h : 0xFFF < pc.toNat + 1) :
    firstOutOfRange pc.toNat = if 0xFFF < pc.toNat then pc else pc + 1 := by
  rw [firstOutOfRange_eq]
  split_ifs with hpc
  · rfl
  · have htop : pc.toNat = (0xFFF : Word).toNat := Nat.le_antisymm (Nat.le_of_not_lt hpc) (Nat.le_of_lt_succ h)
    rw [BitVec.eq_of_toNat_eq htop]
    rfl

theorem decode_of_decodeBytes {hi lo : Byte} {i : Instr} (h : decodeBytes [hi, lo] = .ok (i, [])) :
    decode (wordOfBytes hi lo) = .ok i := by
  simp only [decodeBytes] at h
  split at h
  · next hd =>
    cases h
    exact hd
  · cases h

theorem decode_error_of_illegal {w : Word} (h : legalWord w = false) : ∃ e, decode w = .error e := by
  cases hd : decode w with
  | ok i => exact absurd ((legalWord_iff_decode w).mpr ⟨i, hd⟩) (h ▸ Bool.false_ne_true)
  | error e => exact ⟨e, rfl⟩

/-- A fetched word that decodes to nothing faults with DECODE after the decay and the PC advance (R105). -/
theorem step_of_decode_error {s : State} {w : Word} {e : DecodeError} (hr : s.runState = .running)
    (hpc : s.pc.toNat + 1 ≤ 0xFFF) (hw : w = s.mem.read s.pc.toNat ++ s.mem.read (s.pc.toNat + 1))
    (hd : decode w = .error e) : step s = .next (s.beforeFetch.advancePc.raiseFault .decode s.pc w 0) := by
  rcases step_cases s with ⟨h, -⟩ | ⟨-, h, -⟩ | ⟨w', _, -, -, rfl, -, h⟩ | ⟨w', i, -, -, rfl, hi, -⟩
  · exact absurd hr h
  · omega
  · exact hw ▸ h
  · rw [hw] at hd
    cases hd.symm.trans hi

/-- The words of family B, and those of family E but for 9E and A1, decode to nothing (R172, R192). -/
theorem decode_error_of_unlisted {w : Word} (h : famOf w = 0xB ∨ (famOf w = 0xE ∧ nnOf w ≠ 0x9E ∧ nnOf w ≠ 0xA1)) :
    ∃ e, decode w = .error e := by
  rcases h with hf | ⟨hf, h9E, hA1⟩
  · exact ⟨_, decode_familyB hf⟩
  · refine ⟨.familyE, (decode_familyE hf).trans ((decodeFamilyE_eq_error_iff _ _ _).mpr ⟨rfl, ?_⟩)⟩
    simpa using ⟨h9E, hA1⟩

end Sys2Proof.Machine
end

section
open Sys2Proof Sys2Proof.Machine

/-- Settles O6, by the case of a Step that decodes an instruction. -/
theorem stepRunsTheDecodedInstruction : Obligations.StepRunsTheDecodedInstruction := by
  intro s i hr hpc hbytes
  rw [step_of_nextInstr hr (State.nextInstr_of_decode_ok hpc (decode_of_decodeBytes hbytes)), State.beforeFetch_eq]
  rfl

/-- Settles O7, by the case of a Step that cannot fetch. -/
theorem fetchBeyondMemoryFaults : Obligations.FetchBeyondMemoryFaults := by
  intro s hr hpc
  rcases step_cases s with ⟨h, -⟩ | ⟨-, -, e⟩ | ⟨_, _, -, h, -⟩ | ⟨_, _, -, h, -⟩
  · exact absurd hr h
  · rw [e, firstOutOfRange_of_fetch hpc, State.beforeFetch_eq]
    rfl
  · omega
  · omega

/-- Settles O8: an illegal word decodes to nothing. -/
theorem illegalWordFaultsAfterTheAdvance : Obligations.IllegalWordFaultsAfterTheAdvance := by
  intro s w hr hpc hw hill
  obtain ⟨e, hd⟩ := decode_error_of_illegal hill
  rw [step_of_decode_error hr hpc hw hd, State.beforeFetch_eq]
  rfl

/-- Settles O9: these words decode to nothing, so the Step that fetches one faults with DECODE. -/
theorem unlistedBAndEWordsFaultDecode : Obligations.UnlistedBAndEWordsFaultDecode := by
  intro s w hr hpc hw hunlisted
  obtain ⟨e, hd⟩ := decode_error_of_unlisted hunlisted
  refine ⟨fun i hi => ?_, _, step_of_decode_error hr hpc hw hd, rfl, rfl, rfl, rfl⟩
  cases hd.symm.trans hi

end

section
/-! SUPPORT. The bound of an access of several bytes as the spec writes it, by its last address (spec/20_memory.md
R51), the dirty flag in the execution of an instruction (spec/10_state.md R31), and the bytes of a bulk transfer
(spec/44_families_E-F.md R200). -/

namespace Sys2Proof.Machine

theorem accessOk_iff_last (a n : Nat) : accessOk a n = true ↔ n = 0 ∨ a + n - 1 ≤ 0xFFF := by
  rw [accessOk_iff]
  unfold Config.memSize
  omega

/-- A draw within memory raises the flag when it has a row; a draw that faults leaves it. -/
theorem needsRender_of_exec_drw {x y : Reg} {n : BitVec 4} {s t : State} (h : exec (.drw x y n) s = .next t) :
    t.needsRender = true ↔ s.needsRender = true ∨ (n ≠ 0 ∧ s.i.toNat + n.toNat - 1 ≤ 0xFFF) := by
  have hn : n.toNat = 0 ↔ n = 0 := BitVec.toNat_inj (y := 0#4)
  rcases exec_drw_cases x y n s with ⟨hok, e⟩ | ⟨hno, e⟩
  · cases e.symm.trans h
    rw [accessOk_iff_last, hn] at hok
    simp only [State.setReg_needsRender, State.setNeedsRender_needsRender, Bool.or_eq_true, bne_iff_ne, ne_eq]
    exact or_congr_right ⟨fun hne => ⟨hne, hok.resolve_left hne⟩, And.left⟩
  · cases e.symm.trans h
    rw [← Bool.not_eq_true, accessOk_iff_last, not_or] at hno
    exact ⟨.inl, fun h => h.resolve_right fun hfits => hno.2 hfits.2⟩

theorem needsRender_of_exec_other {i : Instr} {s t : State} (hcls : i ≠ .cls) (hdrw : ¬ ∃ x y n, i = .drw x y n)
    (h : exec i s = .next t) : t.needsRender = s.needsRender := by
  rcases exec_cases i s with ⟨c, a, e, -, -⟩ | ⟨u, e, hu⟩
  · cases e.symm.trans h
    rfl
  · cases e.symm.trans h
    by_contra hne
    exact (hu.needsRender hne).elim hcls hdrw

theorem State.getD_regsUpTo (s : State) {x r : Reg} (hr : r.toNat ≤ x.toNat) :
    (s.regsUpTo x).getD r.toNat 0 = s.reg r := by
  have hlt : r.toNat < 16 := r.isLt
  rw [State.regsUpTo, List.getD_eq_getElem?_getD, List.getElem?_take_of_lt (by omega)]
  simp [State.reg, hlt]

theorem Memory.read_writeBytes_regsUpTo (m : Memory) (s : State) {x r : Reg} {a : Nat} (hfits : a + x.toNat ≤ 0xFFF)
    (hr : r.toNat ≤ x.toNat) : (m.writeBytes a (s.regsUpTo x)).read (a + r.toNat) = s.reg r := by
  rw [Memory.read_writeBytes_inside, State.getD_regsUpTo s hr]
  · rw [State.length_regsUpTo]
    exact Nat.succ_le_succ hfits
  · rw [State.length_regsUpTo]
    omega

/-- A bulk store that fits in memory. -/
theorem exec_ldMemVx_of_fits {x : Reg} {s : State} (h : s.i.toNat + x.toNat ≤ 0xFFF) :
    exec (.ldMemVx x) s = .next (s.setMem (s.mem.writeBytes s.i.toNat (s.regsUpTo x))) := by
  refine (exec_ldMemVx x s).trans (storeAtI_of_fits ?_ _)
  rw [State.length_regsUpTo]
  exact Nat.succ_le_succ h

end Sys2Proof.Machine
end

section
open Sys2Proof Sys2Proof.Machine

/-- Settles O14: the Step clears the flag first, and then only its own 00E0 or DXYN can set it. -/
theorem dirtyFlagReportsThisStepOnly : Obligations.DirtyFlagReportsThisStepOnly := by
  intro s hr
  rcases step_cases_nextInstr s with ⟨h, -⟩ | ⟨-, hn, u, c, p, w, a, hu, e⟩ | ⟨i, -, hn, e⟩
  · exact absurd hr h
  · have hclear : u.needsRender = false := by rcases hu with rfl | rfl <;> rfl
    refine ⟨_, e, ?_⟩
    simp [hclear, hn]
  · obtain ⟨t, ht⟩ := exec_next i s.beforeFetch.advancePc
    refine ⟨t, e.trans ht, ?_⟩
    simp only [hn, Option.some.injEq]
    by_cases hcls : i = .cls
    · subst hcls
      cases (exec_cls _).symm.trans ht
      simp
    · by_cases hdrw : ∃ x y n, i = .drw x y n
      · obtain ⟨x, y, n, rfl⟩ := hdrw
        rw [needsRender_of_exec_drw ht]
        simp
      · rw [needsRender_of_exec_other hcls hdrw ht]
        refine ⟨fun h => absurd h Bool.false_ne_true, ?_⟩
        rintro (⟨x, y, n, rfl, -⟩ | ⟨rfl, -⟩)
        · exact absurd ⟨x, y, n, rfl⟩ hdrw
        · exact absurd rfl hcls

/-- Settles O24: the two bytes stored at PC are the word that the next Step fetches. -/
theorem storedCodeIsWhatTheNextStepRuns : Obligations.StoredCodeIsWhatTheNextStepRuns := by
  intro x i s hr hx hipc hfits hword
  have hx1 : (1 : Reg).toNat ≤ x.toNat := by
    have : x.toNat ≠ 0 := fun h => hx (BitVec.eq_of_toNat_eq h)
    show 1 ≤ x.toNat
    omega
  have h0 := Memory.read_writeBytes_regsUpTo s.mem s (r := 0) hfits (Nat.zero_le _)
  have h1 := Memory.read_writeBytes_regsUpTo s.mem s hfits hx1
  have hnext : (s.setMem (s.mem.writeBytes s.i.toNat (s.regsUpTo x))).nextInstr = some i := by
    refine State.nextInstr_of_encode ?_ ?_
    · rw [State.setMem_pc, ← hipc]
      exact (Nat.add_le_add_left hx1 _).trans hfits
    · rw [State.setMem_pc, State.setMem_mem, ← hipc, hword, ← h0, ← h1]
      rfl
  exact ⟨_, exec_ldMemVx_of_fits hfits, rfl, hnext, step_of_nextInstr hr hnext⟩

end

section
open Sys2Proof Sys2Proof.Machine

/-- Settles O5, word by word. -/
theorem sampleWordsDecode : Obligations.SampleWordsDecode := by
  unfold Obligations.SampleWordsDecode
  decide

/-- Settles O25: CLS has one outcome, and the blank framebuffer has no lit pixel. -/
theorem clsClearsEveryPixel : Obligations.ClsClearsEveryPixel :=
  ⟨encodes_encode .cls, fun s => ⟨_, exec_cls s, Framebuffer.pixel_blank, rfl, rfl, fun _ => rfl⟩⟩

/-- Settles O29: the call leaves SP above the entry it pushed, so the return in any later state with those entries pops
it. -/
theorem callThenReturnComesBack : Obligations.CallThenReturnComesBack := by
  intro nnn s pc0 hpc hlt
  rcases exec_call_cases nnn s with ⟨_, e⟩ | ⟨h, -⟩
  · refine ⟨_, e, fun u hsp hstack => ?_⟩
    have husp : u.sp.val = s.sp.val + 1 := congrArg Fin.val hsp
    have hentry : u.stack[s.sp.val] = pc0 + 2 := by
      rw [hstack _ hlt (Nat.lt_succ_self _), ← hpc]
      exact Vector.getElem_set_self ..
    rcases exec_ret_cases u with ⟨_, e'⟩ | ⟨h0, -⟩
    · have hidx : u.sp.val - 1 = s.sp.val := by omega
      refine ⟨_, e', ?_, Fin.ext hidx⟩
      exact (getElem_congr_idx hidx).trans hentry
    · simp [h0] at husp
  · simp [h] at hlt

/-- Settles O31, by where a skip on equal and on different values goes on. -/
theorem skipsOnARegister : Obligations.SkipsOnARegister := fun x y s _ hpc =>
  ⟨⟨encodes_encode (.seReg x y), _, exec_seReg x y s, State.skipIf_beq_pc hpc _ _, OnlyPcChanges.skipIf s _⟩,
   ⟨encodes_encode (.sneReg x y), _, exec_sneReg x y s, State.skipIf_bne_pc hpc _ _, OnlyPcChanges.skipIf s _⟩⟩

/-- Settles O35: LD_reg has one outcome, the write of VY to VX. -/
theorem ldRegCopiesARegister : Obligations.LdRegCopiesARegister := fun x y s =>
  ⟨encodes_encode (.ldReg x y), _, exec_ldReg x y s, OnlyRegsChange.setReg s x _, State.reg_setReg s x _⟩

/-- Settles O36: each has one outcome, the write of the bitwise result to VX; no other register, so no flag, is
written. -/
theorem logicalOperationsWriteNoFlag : Obligations.LogicalOperationsWriteNoFlag := by
  refine fun x y s => ⟨⟨encodes_encode (.orReg x y), _, exec_orReg x y s, OnlyRegsChange.setReg s x _, fun k => ?_, ?_⟩,
    ⟨encodes_encode (.andReg x y), _, exec_andReg x y s, OnlyRegsChange.setReg s x _, fun k => ?_, ?_⟩,
    ⟨encodes_encode (.xorReg x y), _, exec_xorReg x y s, OnlyRegsChange.setReg s x _, fun k => ?_, ?_⟩⟩
  · rw [State.reg_setReg_same, BitVec.getLsbD_or]
  · exact fun r hr => State.reg_setReg_of_ne s _ hr
  · rw [State.reg_setReg_same, BitVec.getLsbD_and]
  · exact fun r hr => State.reg_setReg_of_ne s _ hr
  · rw [State.reg_setReg_same, BitVec.getLsbD_xor]
  · exact fun r hr => State.reg_setReg_of_ne s _ hr

end

section
/-! SUPPORT. The result and the flag read back (spec/42_families_6-9.md R152), and the results and flags of 8XY5 to
8XYE as numbers (R157 to R160). -/

namespace Sys2Proof.Machine

section
variable (s : State) {x r : Reg} (b c : Byte)

theorem State.reg_setResultAndFlag_flag : (s.setResultAndFlag x b c).reg 0xF = c := by
  rw [State.reg_setResultAndFlag, if_pos rfl]

theorem State.reg_setResultAndFlag_result (hx : x ≠ 0xF) : (s.setResultAndFlag x b c).reg x = b := by
  rw [State.reg_setResultAndFlag, if_neg hx, if_pos rfl]

theorem State.reg_setResultAndFlag_of_ne (hx : r ≠ x) (hf : r ≠ 0xF) :
    (s.setResultAndFlag x b c).reg r = s.reg r := by
  rw [State.reg_setResultAndFlag, if_neg hf, if_neg hx]

end

theorem zext16_toNat (b : Byte) : (zext16 b).toNat = b.toNat := BitVec.toNat_setWidth_of_le (by decide)

theorem subResult_toNat (a b : Byte) : (subResult a b).toNat = (a.toNat + 256 - b.toNat) % 256 :=
  (BitVec.toNat_ofNat ..).trans (Nat.mod_mod _ _)

theorem shrResult_toNat (a : Byte) : (shrResult a).toNat = a.toNat / 2 := by
  rw [shrResult, BitVec.toNat_ushiftRight, Nat.shiftRight_eq_div_pow, Nat.pow_one]

theorem shlResult_toNat (a : Byte) : (shlResult a).toNat = a.toNat * 2 % 256 :=
  (BitVec.toNat_ofNat ..).trans (Nat.mod_mod _ _)

theorem shrFlag_toNat (a : Byte) : (shrFlag a).toNat = a.toNat % 2 := by
  rw [shrFlag, zext8_toNat (by decide), BitVec.extractLsb'_toNat, Nat.shiftRight_zero, Nat.pow_one]

theorem shlFlag_toNat_of_seven {p : Params} (h : p.shlFlagShift = .seven) (a : Byte) :
    (shlFlag p a).toNat = a.toNat / 128 := by
  have ha := a.isLt
  simp only [shlFlag, h]
  rw [zext8_toNat (by decide), BitVec.extractLsb'_toNat, Nat.shiftRight_eq_div_pow]
  omega

/-- A byte has no bit 15. -/
theorem shlFlag_of_fifteen {p : Params} (h : p.shlFlagShift = .fifteen) (a : Byte) : shlFlag p a = 0x00 := by
  have hbit : zext16 a >>> 15 = 0 := by
    apply BitVec.eq_of_toNat_eq
    have ha := a.isLt
    rw [BitVec.toNat_ushiftRight, zext16_toNat, Nat.shiftRight_eq_div_pow]
    exact Nat.div_eq_of_lt (by omega)
  simp only [shlFlag, h, hbit]
  rfl

theorem shiftOperand_eq_shiftedByte (s : State) (x y : Reg) : shiftOperand s x y = shiftedByte s x y := by
  cases h : s.params.shiftSrc <;> simp [shiftOperand, shiftedByte, h]

theorem flagByte_decide (c : Prop) [Decidable c] : flagByte (decide c) = if c then 0x01 else 0x00 := by
  simp only [flagByte, decide_eq_true_eq]

end Sys2Proof.Machine
end

section
open Sys2Proof Sys2Proof.Machine

/-- Settles O37: the sum goes to VX, the carry to VF after it. -/
theorem addRegPutsTheCarryIntoVF : Obligations.AddRegPutsTheCarryIntoVF := by
  refine fun x y s => ⟨encodes_encode (.addReg x y), _, exec_addReg x y s, OnlyRegsChange.setResultAndFlag s x _ _,
    fun hx => ?_, ?_, fun r => State.reg_setResultAndFlag_of_ne s _ _⟩
  · rw [State.reg_setResultAndFlag_result s _ _ hx, addResult_toNat]
  · rw [State.reg_setResultAndFlag_flag, carryFlag, flagByte_decide]

/-- Settles O38: the difference goes to VX, the flag of the polarity in force to VF after it. -/
theorem subPutsTheBorrowFlagIntoVF : Obligations.SubPutsTheBorrowFlagIntoVF := by
  refine fun x y s => ⟨encodes_encode (.sub x y), _, exec_sub x y s, OnlyRegsChange.setResultAndFlag s x _ _,
    fun hx => ?_, fun h => ?_, fun h => ?_, fun h => ?_, fun r => State.reg_setResultAndFlag_of_ne s _ _⟩
  · rw [State.reg_setResultAndFlag_result s _ _ hx, subResult_toNat]
  all_goals simp only [State.reg_setResultAndFlag_flag, borrowFlag, h, flagByte_decide, ge_iff_le, gt_iff_lt]

/-- Settles O39: half of the selected byte goes to VX, its bit 0 to VF after it. -/
theorem shrPutsTheLowBitIntoVF : Obligations.ShrPutsTheLowBitIntoVF := by
  refine fun x y s => ⟨encodes_encode (.shr x y), _, exec_shr x y s, OnlyRegsChange.setResultAndFlag s x _ _,
    fun hx => ?_, ?_, fun r => State.reg_setResultAndFlag_of_ne s _ _⟩
  · rw [State.reg_setResultAndFlag_result s _ _ hx, shrResult_toNat, shiftOperand_eq_shiftedByte]
  · rw [State.reg_setResultAndFlag_flag, shrFlag_toNat, shiftOperand_eq_shiftedByte]

/-- Settles O40: twice the selected byte goes to VX, its bit 7, or the bit 15 that it has not, to VF after it. -/
theorem shlPutsTheHighBitIntoVF : Obligations.ShlPutsTheHighBitIntoVF := by
  refine fun x y s => ⟨encodes_encode (.shl x y), _, exec_shl x y s, OnlyRegsChange.setResultAndFlag s x _ _,
    fun hx => ?_, fun h => ?_, fun h => ?_, fun r => State.reg_setResultAndFlag_of_ne s _ _⟩
  · rw [State.reg_setResultAndFlag_result s _ _ hx, shlResult_toNat, shiftOperand_eq_shiftedByte]
  · rw [State.reg_setResultAndFlag_flag, shlFlag_toNat_of_seven h, shiftOperand_eq_shiftedByte]
  · rw [State.reg_setResultAndFlag_flag, shlFlag_of_fifteen h]

end

section
/-! SUPPORT. Values of the key skips, of the index sum and of the fault address of a bulk transfer
(spec/44_families_E-F.md R190, R191, R197, R200, R201), and the state that one load or add leaves to the next Step. -/

namespace Sys2Proof.Machine

theorem zext16_eq_ofNat (b : Byte) : zext16 b = BitVec.ofNat 16 b.toNat := (BitVec.ofNat_toNat 16 b).symm

theorem indexSum_toNat (i : Word) (b : Byte) : (indexSum i b).toNat = (i.toNat + b.toNat) % 65536 := by
  rw [indexSum, zext16_toNat]
  exact (BitVec.toNat_ofNat ..).trans (Nat.mod_mod _ _)

/-- The key that VX names, when its value is a key index. -/
theorem setWidth_eq_key {b : Byte} {k : Reg} (h : b.toNat = k.toNat) : b.setWidth 4 = k := by
  apply BitVec.eq_of_toNat_eq
  rw [BitVec.toNat_setWidth, h]
  exact Nat.mod_eq_of_lt k.isLt

theorem skipOnKey_of_key {s : State} {x k : Reg} (h : (s.reg x).toNat = k.toNat) (i : Instr) (b : Bool) :
    skipOnKey i x b s = .next (s.skipIf (s.key k == b)) := by
  have hk : k.toNat < 16 := k.isLt
  rcases skipOnKey_cases i x b s with ⟨-, e⟩ | ⟨hgt, -⟩
  · rw [e, setWidth_eq_key h]
  · omega

theorem skipOnKey_of_above {s : State} {x : Reg} (h : 0x0F < (s.reg x).toNat) (i : Instr) (b : Bool) :
    skipOnKey i x b s = .next (s.faultIn i .address (BitVec.ofNat 16 (s.reg x).toNat)) := by
  rcases skipOnKey_cases i x b s with ⟨hle, -⟩ | ⟨-, e⟩
  · omega
  · rw [e, zext16_eq_ofNat]

/-- Writing the value that a key has already changes nothing. -/
theorem State.setKey_of_key {s : State} {k : Reg} {b : Bool} (h : s.key k = b) : s.setKey k b = s := by
  subst h
  rw [State.setKey, State.key, Vector.set_getElem_self]
  rfl

/-- A bulk load that fits in memory. -/
theorem exec_ldVxMem_of_fits {x : Reg} {s : State} (h : s.i.toNat + x.toNat ≤ 0xFFF) :
    exec (.ldVxMem x) s = .next
      (s.setV (writeRegs s.v 0 ((List.range (x.toNat + 1)).map (fun k => s.mem.read (s.i.toNat + k))))) := by
  rcases exec_ldVxMem_cases x s with ⟨-, e⟩ | ⟨hno, -⟩
  · exact e
  · rw [(accessOk_iff_last _ _).mpr (.inr h)] at hno
    contradiction

theorem exec_ldVxMem_of_exceeds {x : Reg} {s : State} (h : 0xFFF < s.i.toNat + x.toNat) :
    exec (.ldVxMem x) s = .next (s.faultIn (.ldVxMem x) .address (firstOutOfRange s.i.toNat)) := by
  rcases exec_ldVxMem_cases x s with ⟨hok, -⟩ | ⟨-, e⟩
  · rw [accessOk_iff_last] at hok
    omega
  · exact e

end Sys2Proof.Machine
end

section
open Sys2Proof Sys2Proof.Machine

/-- Settles O34: each Step runs its instruction, and the load leaves run state, memory and the advanced PC to the add.
-/
theorem loadThenAddDoublesTheImmediate : Obligations.LoadThenAddDoublesTheImmediate := by
  intro x nn s hr hpc hload hadd
  have hstep : step s = .next (s.beforeFetch.advancePc.setReg x nn) :=
    (step_of_nextInstr hr (State.nextInstr_of_encode (by omega) hload)).trans (exec_ldImm x nn _)
  generalize ht : s.beforeFetch.advancePc.setReg x nn = t at hstep
  have hpc2 : t.pc = s.pc + 2 := ht ▸ rfl
  have hnat : (s.pc + 2).toNat = s.pc.toNat + 2 := by
    have htwo : (2 : Word).toNat = 2 := rfl
    rw [BitVec.toNat_add, htwo]
    exact Nat.mod_eq_of_lt (by omega)
  have hmem : t.mem = s.mem := ht ▸ rfl
  have hrun : t.runState = .running := ht ▸ hr
  have hnext : t.nextInstr = some (.addImm x nn) := by
    refine State.nextInstr_of_encode ?_ ?_
    · rw [hpc2, hnat]
      omega
    · rw [hpc2, hnat, hmem]
      exact hadd
  have hx : t.reg x = nn := ht ▸ State.reg_setReg_same _ x nn
  refine ⟨t, _, hstep, (step_of_nextInstr hrun hnext).trans (exec_addImm x nn _), ?_, fun r hne => ?_, ?_⟩
  · rw [State.reg_setReg_same, addResult_toNat, State.advancePc_reg, State.beforeFetch_reg, hx]
  · rw [State.reg_setReg_of_ne _ _ hne, State.advancePc_reg, State.beforeFetch_reg, ← ht,
      State.reg_setReg_of_ne _ _ hne, State.advancePc_reg, State.beforeFetch_reg]
  · rw [State.setReg_pc, State.advancePc_pc, State.beforeFetch_pc, hpc2]
    exact BitVec.add_assoc ..

/-- Settles O42: RND has one outcome, the masked draw in VX and the count of draws advanced. -/
theorem rndMasksOneFreeDraw : Obligations.RndMasksOneFreeDraw := by
  refine fun x nn s => ⟨encodes_encode (.rnd x nn), _, exec_rnd x nn s, fun k => ?_, fun r hr => ?_, rfl, rfl,
    fun _ => rfl⟩
  · rw [State.reg_setReg_same, BitVec.getLsbD_and]
  · exact State.reg_setReg_of_ne _ _ hr

/-- Settles O46: a key index up to 0x0F names its key, and the skips test it for opposite values. -/
theorem keySkipsReadTheKeypad : Obligations.KeySkipsReadTheKeypad := by
  intro x k s pc0 hpc hk
  refine ⟨⟨encodes_encode (.skp x), _, (exec_skp x s).trans (skipOnKey_of_key hk _ _), ?_, OnlyPcChanges.skipIf s _⟩,
    ⟨encodes_encode (.sknp x), _, (exec_sknp x s).trans (skipOnKey_of_key hk _ _), ?_, OnlyPcChanges.skipIf s _⟩⟩
  · rw [State.skipIf_pc_of_pc hpc]
    cases s.key k <;> rfl
  · rw [State.skipIf_pc_of_pc hpc]
    cases s.key k <;> rfl

/-- Settles O47, by the faulting case of the key skips. -/
theorem keyIndexAboveFifteenFaults : Obligations.KeyIndexAboveFifteenFaults := fun x s _ hpc hx =>
  ⟨⟨_, (exec_skp x s).trans (skipOnKey_of_above hx _ _), FaultsWith.faultIn_of_pc hpc (.skp x) .address _⟩,
   ⟨_, (exec_sknp x s).trans (skipOnKey_of_above hx _ _), FaultsWith.faultIn_of_pc hpc (.sknp x) .address _⟩⟩

/-- Settles O49: LD_ST_Vx has one outcome, and the report is that of the Step's decay. -/
theorem soundTimerIsSet : Obligations.SoundTimerIsSet := by
  refine fun x s => ⟨encodes_encode (.ldStVx x), ⟨_, exec_ldStVx x s, rfl, rfl, fun _ => rfl⟩, fun hr _ => ?_⟩
  rw [stepOutput_of_running hr, decide_eq_true_eq]
  exact BitVec.toNat_inj (y := 1#8)

/-- Settles O50: LD_Vx_K has one outcome, the wait; a Step, a held key and a new press act on it as on every wait. -/
theorem keyWaitIsEntered : Obligations.KeyWaitIsEntered := by
  intro x s
  refine ⟨encodes_encode (.ldVxK x), _, exec_ldVxK x s, rfl, rfl, rfl, fun _ => rfl, ?_⟩
  have hwait : ((s.setWaitReg x).setRunState .awaitingKey).runState = .awaitingKey := rfl
  generalize ht : (s.setWaitReg x).setRunState .awaitingKey = t at hwait
  refine ⟨step_of_not_running (hwait ▸ nofun), fun k hk => ?_, fun k hk => ?_⟩
  · have hk : t.key k = true := ht ▸ hk
    rw [setKey_of_no_press (hwait ▸ nofun) (.inr (.inl hk)), State.setKey_of_key hk]
  · have hk : t.key k = false := ht ▸ hk
    have hx : t.waitReg = x := ht ▸ rfl
    rw [setKey_of_press hwait hk, State.setRunState_reg, hx, State.reg_setReg_same]
    exact ⟨zext8_toNat (by decide) k, rfl⟩

/-- Settles O52: the index sum is written modulo 2^16 to I alone. -/
theorem addIVxAddsToTheIndex : Obligations.AddIVxAddsToTheIndex := fun x s =>
  ⟨encodes_encode (.addIVx x), _, exec_addIVx x s, indexSum_toNat s.i (s.reg x), rfl, fun _ => rfl⟩

/-- Settles O55, by the bound of the store: X + 1 bytes at I that read back as the registers, or a fault with nothing
written. -/
theorem ldMemVxStoresTheRegisters : Obligations.LdMemVxStoresTheRegisters := by
  refine fun x s => ⟨encodes_encode (.ldMemVx x), fun hfits => ?_, fun hover pc0 hpc => ?_⟩
  · refine ⟨_, exec_ldMemVx_of_fits hfits, fun r hr => Memory.read_writeBytes_regsUpTo s.mem s hfits hr,
      fun a ha => ?_, rfl⟩
    refine Memory.read_writeBytes_outside s.mem ?_ ?_
    · rw [State.length_regsUpTo]
      exact Nat.succ_le_succ hfits
    · rw [State.length_regsUpTo]
      exact ha
  · have hlen := s.length_regsUpTo x
    have hne : s.regsUpTo x ≠ [] := List.ne_nil_of_length_pos (by omega)
    have hout : Config.memSize < s.i.toNat + (s.regsUpTo x).length := by
      rw [hlen]
      exact Nat.succ_lt_succ hover
    exact ⟨_, (exec_ldMemVx x s).trans (storeAtI_of_exceeds hne hout _),
      FaultsWith.faultIn_of_pc hpc (.ldMemVx x) .address _⟩

/-- Settles O56, by the bound of the load: the bytes at I in V0 to VX, or a fault with nothing written. -/
theorem ldVxMemLoadsTheRegisters : Obligations.LdVxMemLoadsTheRegisters := by
  refine fun x s => ⟨encodes_encode (.ldVxMem x), fun hfits => ?_, fun hover pc0 hpc => ?_⟩
  · refine ⟨_, exec_ldVxMem_of_fits hfits, ⟨rfl, fun _ => rfl⟩, fun r => ?_⟩
    simp only [State.reg_setV_writeRegs, List.length_map, List.length_range, Nat.lt_succ_iff]
    split_ifs with hr
    · simp [Nat.lt_succ_iff.mpr hr]
    · rfl
  · exact ⟨_, exec_ldVxMem_of_exceeds hover, FaultsWith.faultIn_of_pc hpc (.ldVxMem x) .address _⟩

end

section
/-! SUPPORT. The drawing engine read through the sprite's pixels (spec/43_families_A-D.md R173): what a draw that fits
does, pixel by pixel, and when it collides. -/

namespace Sys2Proof.Machine

theorem drawnColumns_eq_spriteWidth (p : Params) : drawnColumns p = spriteWidth p := by
  cases h : p.spriteRowBits <;> simp [drawnColumns, spriteWidth, h]

theorem spriteCovers_iff_mem_spritePoints (s : State) (x y : Reg) (n : BitVec 4) (p : Point) :
    SpriteCovers s x y n p ↔ p ∈ spritePoints (spriteWidth s.params) (s.reg x).toNat (s.reg y).toNat
      ((List.range n.toNat).map (fun k => s.mem.read (s.i.toNat + k))) := by
  obtain ⟨px, py⟩ := p
  rw [mem_spritePoints, SpriteCovers, drawnColumns_eq_spriteWidth, List.length_map, List.length_range]
  have hpoint (r c : Nat) : (px, py) = (Fin.ofNat 64 ((s.reg x).toNat + c), Fin.ofNat 32 ((s.reg y).toNat + r)) ↔
      px.val = ((s.reg x).toNat + c) % 64 ∧ py.val = ((s.reg y).toNat + r) % 32 := by
    simp [Prod.ext_iff, Fin.ext_iff]
  constructor
  · rintro ⟨r, c, hr, hc, hbit, hp⟩
    exact ⟨r, hr, c, hc, by simpa [hr] using hbit, (hpoint r c).mpr hp⟩
  · rintro ⟨r, hr, c, hc, hbit, hp⟩
    exact ⟨r, c, hr, hc, by simpa [hr] using hbit, (hpoint r c).mp hp⟩

section
variable {s : State} {x y : Reg} {n : BitVec 4}

theorem drwOutcome_pixel_of_covers {p : Point} (h : SpriteCovers s x y n p) :
    (drwOutcome x y n s).1.pixel p = !s.fb.pixel p := by
  obtain ⟨hpixel, -⟩ := drwOutcome_spec x y n s
  rw [hpixel, decide_eq_true ((spriteCovers_iff_mem_spritePoints s x y n p).mp h), Bool.bne_true]

theorem drwOutcome_pixel_of_not_covers {p : Point} (h : ¬ SpriteCovers s x y n p) :
    (drwOutcome x y n s).1.pixel p = s.fb.pixel p := by
  obtain ⟨hpixel, -⟩ := drwOutcome_spec x y n s
  rw [hpixel, decide_eq_false (mt (spriteCovers_iff_mem_spritePoints s x y n p).mpr h), Bool.bne_false]

/-- A collision is a lit pixel that the sprite covers. -/
theorem drwOutcome_collision_iff :
    (drwOutcome x y n s).2 = true ↔ ∃ p, SpriteCovers s x y n p ∧ s.fb.pixel p = true := by
  obtain ⟨-, hcollision⟩ := drwOutcome_spec x y n s
  simp only [hcollision, spriteCovers_iff_mem_spritePoints]

/-- A pixel that a draw changes is one that the sprite covers. -/
theorem covers_of_pixel_ne {p : Point} (h : (drwOutcome x y n s).1.pixel p ≠ s.fb.pixel p) : SpriteCovers s x y n p :=
  Classical.not_not.mp fun hno => h (drwOutcome_pixel_of_not_covers hno)

theorem exec_drw_of_fits (h : n = 0 ∨ s.i.toNat + n.toNat - 1 ≤ 0xFFF) : exec (.drw x y n) s = .next
    (((s.setFb (drwOutcome x y n s).1).setNeedsRender (s.needsRender || n != 0)).setReg 0xF
      (collisionFlag (drwOutcome x y n s).2)) := by
  rcases exec_drw_cases x y n s with ⟨-, e⟩ | ⟨hno, -⟩
  · exact e
  · have hok : accessOk s.i.toNat n.toNat = true :=
      (accessOk_iff_last _ _).mpr (h.imp_left fun h0 => congrArg BitVec.toNat h0)
    cases hok.symm.trans hno

theorem exec_drw_of_exceeds (hn : n ≠ 0) (h : 0xFFF < s.i.toNat + n.toNat - 1) : exec (.drw x y n) s =
    .next (s.faultIn (.drw x y n) .address (firstOutOfRange s.i.toNat)) := by
  rcases exec_drw_cases x y n s with ⟨hok, -⟩ | ⟨-, e⟩
  · rcases (accessOk_iff_last _ _).mp hok with h0 | hfits
    · exact absurd (BitVec.eq_of_toNat_eq h0) hn
    · omega
  · exact e

/-- The sprite that a draw covers depends on I, VX, VY, memory and the row width alone. -/
theorem spriteCovers_congr {u : State} (hi : u.i = s.i) (hx : u.reg x = s.reg x) (hy : u.reg y = s.reg y)
    (hparams : u.params = s.params) (hmem : ∀ a, u.mem.read a = s.mem.read a) (p : Point) :
    SpriteCovers u x y n p ↔ SpriteCovers s x y n p := by
  unfold SpriteCovers
  simp only [hi, hx, hy, hparams, hmem]

end

end Sys2Proof.Machine
end

section
open Sys2Proof Sys2Proof.Machine

/-- Settles O43: a draw that fits flips what the sprite covers, and a lit pixel is unset exactly when it is covered. -/
theorem drwXorsTheSprite : Obligations.DrwXorsTheSprite := by
  intro x y n s
  refine ⟨encodes_encode (.drw x y n), fun hfits => ⟨_, exec_drw_of_fits hfits, fun p => drwOutcome_pixel_of_covers,
    fun p => drwOutcome_pixel_of_not_covers, ?_, fun hkept => ?_, fun r hr => State.reg_setReg_of_ne _ _ hr, ?_, rfl,
    fun _ => rfl⟩⟩
  · rintro ⟨p, hlit, hunset⟩
    have hcovers : SpriteCovers s x y n p := by
      refine covers_of_pixel_ne fun h => ?_
      cases hlit.symm.trans (h.symm.trans hunset)
    rw [State.reg_setReg_same, drwOutcome_collision_iff.mpr ⟨p, hcovers, hlit⟩]
    rfl
  · have hno : (drwOutcome x y n s).2 = false := by
      rw [← Bool.not_eq_true, drwOutcome_collision_iff]
      rintro ⟨p, hcovers, hlit⟩
      have hunset : (drwOutcome x y n s).1.pixel p = false := by
        rw [drwOutcome_pixel_of_covers hcovers, hlit, Bool.not_true]
      cases hunset.symm.trans (hkept p hlit)
    rw [State.reg_setReg_same, hno]
    rfl
  · rw [Bool.eq_iff_iff]
    simp

/-- Settles O44, by the faulting case of a draw. -/
theorem drwBeyondMemoryFaults : Obligations.DrwBeyondMemoryFaults := fun x y n s _ hpc hn hover =>
  ⟨_, exec_drw_of_exceeds hn hover, firstOutOfRange_eq s.i ▸ FaultsWith.faultIn_of_pc hpc (.drw x y n) .address _⟩

/-- Settles O45: both draws cover the same pixels, so each of them is flipped twice, and one that the first draw lit
is lit for the second. -/
theorem drawingTwiceRestoresTheScreen : Obligations.DrawingTwiceRestoresTheScreen := by
  intro x y n s t u hfits ht hfb hi hx hy hparams hmem
  have hcovers (p : Point) : SpriteCovers u x y n p ↔ SpriteCovers s x y n p :=
    spriteCovers_congr hi hx hy hparams hmem p
  have hfb : u.fb = (drwOutcome x y n s).1 := by
    cases (exec_drw_of_fits hfits).symm.trans ht
    exact hfb
  have htfb : t.fb = (drwOutcome x y n s).1 := by
    cases (exec_drw_of_fits hfits).symm.trans ht
    rfl
  refine ⟨_, exec_drw_of_fits (hi ▸ hfits), Framebuffer.ext_pixel fun p => ?_, ?_⟩
  · show (drwOutcome x y n u).1.pixel p = _
    by_cases hp : SpriteCovers s x y n p
    · rw [drwOutcome_pixel_of_covers ((hcovers p).mpr hp), hfb, drwOutcome_pixel_of_covers hp, Bool.not_not]
    · rw [drwOutcome_pixel_of_not_covers (mt (hcovers p).mp hp), hfb, drwOutcome_pixel_of_not_covers hp]
  · rintro ⟨p, hunlit, hlit⟩
    rw [htfb] at hlit
    have hp : SpriteCovers s x y n p := by
      refine covers_of_pixel_ne fun h => ?_
      cases hlit.symm.trans (h.trans hunlit)
    rw [State.reg_setReg_same, drwOutcome_collision_iff.mpr ⟨p, (hcovers p).mpr hp, hfb ▸ hlit⟩]
    rfl

end

section
/-! SUPPORT. The transactions Load and Reset (spec/70_reset_and_hazards.md R260, R264) and the flat copy of the
framebuffer (spec/60_exceptions.md R240). -/

namespace Sys2Proof.Machine

theorem transact_load_of_some {image : Option (List Byte)} {s t : State} {a : LoadResult}
    (h : loadImage image s = some (a, t)) : transact (.load image) s = some (.load a, t) := by
  simp only [transact, h]

theorem transact_load_of_loaded {s : State} (hl : s.loaded = true) (image : Option (List Byte)) :
    transact (.load image) s = none := by
  rcases loadImage_cases image s with ⟨-, e⟩ | ⟨hl', -⟩ | ⟨_, hl', -⟩
  · simp only [transact, e]
  · cases hl.symm.trans hl'
  · cases hl.symm.trans hl'

theorem loadImage_of_refused {s : State} {image : Option (List Byte)} (hl : s.loaded = false)
    (h : ∀ b, image = some b → loadableImage b = false) : loadImage image s = some (.failure, s) := by
  rcases loadImage_cases image s with ⟨hl', -⟩ | ⟨-, -, e⟩ | ⟨b, -, hb, hok, -⟩
  · cases hl.symm.trans hl'
  · exact e
  · cases (h b hb).symm.trans hok

theorem loadImage_of_loadable {s : State} {b : List Byte} (hl : s.loaded = false) (h : loadableImage b = true) :
    loadImage (some b) s =
      some (.success, (s.setMem (s.mem.writeBytes Config.programBase b)).setLoaded true) := by
  rcases loadImage_cases (some b) s with ⟨hl', -⟩ | ⟨-, hno, -⟩ | ⟨c, -, hc, -, e⟩
  · cases hl.symm.trans hl'
  · cases h.symm.trans (hno b rfl)
  · cases hc
    exact e

theorem loadableImage_iff (b : List Byte) : loadableImage b = true ↔ b.length ≤ 3584 := decide_eq_true_iff

/-- Above the font, memory that nothing has written reads as zero (R32). -/
theorem Memory.background_of_ge {a : Nat} (h : 80 ≤ a) : Memory.background a = 0x00 := by
  have hlen : defaultFont.toList.length ≤ a := by
    rw [Vector.length_toList]
    exact h
  rw [Memory.background, List.getD_eq_getElem?_getD, List.getElem?_eq_none hlen]
  rfl

/-- Memory after Reset: the font of the parameters, and zeros above it (R33, R260). -/
theorem State.construct_read (p : Params) (a : Nat) :
    (State.construct p).mem.read a = if h : a < 80 then p.font[a] else 0x00 := by
  have hlen : p.font.toList.length = 80 := Vector.length_toList
  have hfits : Config.fontBase + p.font.toList.length ≤ Config.memSize := by
    rw [hlen]
    decide
  rw [State.construct, State.setMem_mem]
  split_ifs with h
  · have hread := Memory.read_writeBytes_inside [] hfits (hlen ▸ h)
    rw [Config.fontBase, Nat.zero_add] at hread
    rw [Config.fontBase, hread]
    simp [h]
  · have ha : Config.fontBase + p.font.toList.length ≤ a := by
      rw [hlen, Config.fontBase]
      omega
    rw [Memory.read_writeBytes_outside [] hfits (.inr ha), Memory.read_nil, Memory.background_of_ge (by omega)]

theorem Memory.writeBytes_nil_of_background {a : Nat} {bs : List Byte}
    (h : ∀ (k : Nat) (hk : k < bs.length), bs[k] = Memory.background (a + k)) : Memory.writeBytes [] a bs = [] := by
  induction bs generalizing a with
  | nil => rfl
  | cons b bs ih =>
    have hwrite : Memory.write [] a b = [] := by
      have hb : b = Memory.background a := h 0 (Nat.succ_pos _)
      rw [Memory.write, if_pos hb]
      exact ite_self _
    rw [Memory.writeBytes, hwrite]
    refine ih fun k hk => ?_
    rw [Nat.add_assoc, Nat.add_comm 1 k]
    exact h (k + 1) (Nat.succ_lt_succ hk)

/-- The default font is what unlisted addresses read as. -/
theorem State.construct_defaultParams : State.construct defaultParams = State.reset := by
  have hfont : Memory.writeBytes [] Config.fontBase defaultParams.font.toList = [] := by
    refine Memory.writeBytes_nil_of_background fun k hk => ?_
    rw [Config.fontBase, Nat.zero_add]
    exact (List.getD_eq_getElem defaultFont.toList 0 hk).symm
  rw [State.construct, hfont]
  rfl

/-- In a concatenation of rows of one length, the entry `j` of row `i`. -/
theorem getElem?_flatMap_rows {α β : Type} {f : α → List β} {m j : Nat} (hf : ∀ a, (f a).length = m) (hj : j < m)
    (l : List α) (i : Nat) : (l.flatMap f)[i * m + j]? = l[i]?.bind (fun a => (f a)[j]?) := by
  induction l generalizing i with
  | nil => simp
  | cons a l ih =>
    rw [List.flatMap_cons]
    cases i with
    | zero =>
      rw [Nat.zero_mul, Nat.zero_add, List.getElem?_append_left (hf a ▸ hj)]
      rfl
    | succ i =>
      have hskip : (i + 1) * m + j - (f a).length = i * m + j := by
        rw [hf, Nat.succ_mul]
        omega
      have hge : (f a).length ≤ (i + 1) * m + j := by
        rw [hf, Nat.succ_mul]
        omega
      rw [List.getElem?_append_right hge, hskip, ih, List.getElem?_cons_succ]

end Sys2Proof.Machine
end

section
open Sys2Proof Sys2Proof.Machine

/-- Settles O57, field by field; the memory is that of `State.construct_read`. -/
theorem resetLeavesTheListedValues : Obligations.ResetLeavesTheListedValues := by
  refine ⟨State.construct_defaultParams, fun s => ⟨_, rfl, State.construct_read s.params, fun r => ?_, rfl, rfl, rfl,
    fun k hk => ?_, rfl, rfl, fun k => ?_, fun p => ?_, rfl, rfl, rfl, rfl, rfl⟩⟩
  · exact Vector.getElem_replicate ..
  · exact Vector.getElem_replicate ..
  · exact Vector.getElem_replicate ..
  · exact Framebuffer.pixel_blank p

/-- Settles O58, by the cases of a Load: no move, a refused image, or one that fits above 0x200. -/
theorem loadPlacesTheImage : Obligations.LoadPlacesTheImage := by
  intro s b
  refine ⟨fun hl => ⟨transact_load_of_loaded hl _, transact_load_of_loaded hl _⟩,
    fun hl => transact_load_of_some (loadImage_of_refused hl nofun), fun hl hlong => ?_, fun hl hfits => ?_⟩
  · refine transact_load_of_some (loadImage_of_refused hl ?_)
    intro c hc
    cases hc
    rw [← Bool.not_eq_true, loadableImage_iff]
    omega
  · have hmem : Config.programBase + b.length ≤ Config.memSize := by
      unfold Config.programBase Config.memSize
      omega
    refine ⟨_, transact_load_of_some (loadImage_of_loadable hl ((loadableImage_iff b).mpr hfits)), fun k hk => ?_,
      fun a ha => Memory.read_writeBytes_outside s.mem hmem ha, rfl, rfl⟩
    exact (Memory.read_writeBytes_inside s.mem hmem hk).trans (List.getD_eq_getElem b 0 hk)

/-- Settles O59, by the three cases of SetKey. -/
theorem setKeyCompletesTheWaitOnAPressEdge : Obligations.SetKeyCompletesTheWaitOnAPressEdge := by
  intro k pressed s
  refine ⟨_, rfl, ?_⟩
  rcases setKey_cases k pressed s with ⟨hf, e⟩ | ⟨hf, hno, e⟩ | ⟨hw, hk, rfl, e⟩
  · simp [hf, e]
  · rw [e]
    refine ⟨fun h => absurd h hf, fun _ => State.key_setKey s k pressed, fun hw hk hp => absurd ⟨hw, hk, hp⟩ hno,
      fun _ => rfl⟩
  · rw [e]
    refine ⟨fun h => (nomatch hw.symm.trans h), fun _ => State.key_setKey s k true,
      fun _ _ _ => ⟨?_, fun r hr => ?_, rfl, rfl⟩, fun h => ?_⟩
    · rw [State.setRunState_reg, State.reg_setReg_same, zext8_toNat (by decide)]
    · exact State.reg_setReg_of_ne _ _ hr
    · simp [hw, hk] at h

/-- Settles O60: the copy is the concatenation of 32 rows of 64 pixels. -/
theorem framebufferCopyIsRowByRow : Obligations.FramebufferCopyIsRowByRow := by
  refine fun s => ⟨_, rfl, ?_, fun x y => ?_⟩
  · simp [readFramebuffer]
  · rw [readFramebuffer, getElem?_flatMap_rows (fun _ => by simp) x.isLt]
    simp

end
